-- ==== Sys2Proof/Word.lean ====
section
/-! DEFINITION. The machine's word types, with the widths of `20_memory.md` R73 and R78 and
`10_state.md` R31 to R42. Bit 0 is the least significant bit (R14). -/

namespace Sys2Proof

/-- A byte (R14). -/
abbrev Byte := BitVec 8

/-- The sequencing word `W = {st[3:0], ph[3:0]}` (R101). -/
abbrev SeqWord := BitVec 8

/-- A SensorAddress: 64 opaque bits, byte `i` in bits `[8i+7:8i]` (R75, R110). -/
abbrev Address := BitVec 64

/-- A sensor id, `u8` (R84). -/
abbrev Sid := BitVec 8

/-- An ADC count on its 10-bit port (R69). -/
abbrev Count := BitVec 10

/-- A duration in microseconds on its 26-bit port (R71, R118). -/
abbrev DelayUs := BitVec 26

/-- The kind of a value (R115). -/
abbrev Vkind := BitVec 2

/-- The numerator of a value, 39 bits, two's complement (R115). -/
abbrev Vnum := BitVec 39

/-- A value packed as `{vkind[1:0], vnum[38:0]}` (R115). -/
abbrev ValueWord := BitVec 41

end Sys2Proof
end

