-- ==== Sys2Proof/Config.lean ====
section
/-! DEFINITION. The implementation parameters of `00_scope.md` R12 that the document leaves open, and the
fault policy of R33. The fixed constants of R12 are in Machine/Constants.lean. -/

namespace Sys2Proof

/-- The fault policy (R33): `halt` is strap level 0, `recover` is level 1. -/
inductive Policy where
  | halt
  | recover
  deriving DecidableEq, Repr

/-- Which function `CRC8` is (R143): the default one-wire CRC of R144, or the bus driver's own, of which
nothing is known (R12: an OPEN parameter). -/
inductive CrcChoice where
  | oneWire
  | driver
  deriving DecidableEq, Repr

/-- The open parameters (R12). DESIGN CHOICE (notes/assumptions/4.md): they are carried by the state and no
step changes them, so that a statement about every state is one about every instance. `N_PROBES` is
`probesPred + 1`, so the type holds exactly the values 1 to 253 (V12: no other is a configuration). -/
structure Config where
  probesPred : Fin 253
  crc : CrcChoice
  cmdConvert : Byte
  cmdReadScratchpad : Byte
  deriving DecidableEq, Repr

/-- `N_PROBES` (R12). -/
def Config.nProbes (c : Config) : Nat := c.probesPred.val + 1

/-- The two command bytes are required to be different (R119, V13). -/
def Config.wf (c : Config) : Bool := c.cmdConvert != c.cmdReadScratchpad

/-- The normative instance: default `CRC8` and command bytes, and the two probes of the examples (R12).
DESIGN CHOICE, PRESUMED (notes/assumptions/4.md and 5.md). -/
def Config.normative : Config :=
  { probesPred := 1, crc := .oneWire, cmdConvert := 0x44, cmdReadScratchpad := 0xBE }

/-- The `CRC8` of a bus driver that is not the default: a FREE VALUE, no body (R143: "polynomial determined
by the bus driver"; notes/assumptions/5.md). -/
opaque Config.driverCrc8 : Vector Byte 8 → Byte

/-- What a register of `w` bits holds after a sum that does not fit it: a FREE VALUE, no body. The spec says
that no such sum occurs (R15, R48) and states no result (notes/assumptions/10.md). -/
opaque Config.beyondWidth (w n : Nat) : BitVec w

end Sys2Proof
end

