-- ==== Sys2Proof/Syntax.lean ====
section
/-! DEFINITION. The instructions: one constructor for each row of spec/opcode_table.json, the 21
micro-operations of `30_encoding.md` R101 and the nine interface requests of R117, R120, R122, R123.
Also the analog channels and the error kinds they name. -/

namespace Sys2Proof

/-- The two analog channels (R82). The pin driver's own numbers for them are its parameters. -/
inductive Channel where
  | dust
  | hum
  deriving DecidableEq, Repr

/-- The eight error kinds, in the document's order (R116, R250). `pinInitError` is kept and raised by
nothing (R254, V5). -/
inductive ErrorKind where
  | noDevicesFound
  | insufficientDevices
  | busDataError
  | pinInitError
  | pinWriteError
  | crcMismatch
  | batchCollectionError
  | persistenceError
  deriving DecidableEq, Repr

/-- A call of one collaborator with its arguments (`20_memory.md` R63 to R71). The pin of a digital write
is always `PIN_LED` (R68). -/
inductive Request where
  | resetBus
  | enumerateNext (cont : Bool)
  | transaction (cmd : Byte) (addr : Address)
  | readByte
  | digitalWrite (level : Bool)
  | analogRead (ch : Channel)
  | insertReading (sid : Sid) (vkind : Vkind) (vnum : Vnum)
  | delay (us : DelayUs)
  deriving DecidableEq, Repr

/-- The instructions. The first 21 are selected by the sequencing word and have no operand fields (R101);
the last nine are the interface requests, whose operands are the port's operand signals (R73). -/
inductive Instr where
  | initReset
  | initEnum
  | idle
  | startConversion
  | awaitConversion
  | rtCmd
  | rtByte
  | rtCheck
  | rtPersist
  | dsLedOn
  | dsHoldRise
  | dsSample
  | dsHoldPulse
  | dsLedOff
  | dsHoldSettle
  | dsConvert
  | dsPersist
  | hmSample
  | hmPersist
  | sleep
  | fault
  | resetBus
  | enumerateNext (cont : Bool)
  | transaction (cmd : Byte) (addr : Address)
  | readByte
  | digitalWrite (level : Bool)
  | analogRead (ch : Channel)
  | insertReading (sid : Sid) (vkind : Vkind) (vnum : Vnum)
  | delay (us : DelayUs)
  | diag (sid : Sid) (kind : BitVec 4)
  deriving DecidableEq, Repr

/-- The table row a call is (R128). -/
def Request.instr : Request → Instr
  | .resetBus => .resetBus
  | .enumerateNext cont => .enumerateNext cont
  | .transaction cmd addr => .transaction cmd addr
  | .readByte => .readByte
  | .digitalWrite level => .digitalWrite level
  | .analogRead ch => .analogRead ch
  | .insertReading sid vkind vnum => .insertReading sid vkind vnum
  | .delay us => .delay us

end Sys2Proof
end

