-- ==== Sys2Proof/WellFormed.lean ====
section
/-! DEFINITION. Which instructions the SAE can produce: the operand values the spec says occur. The 21
micro-operations have no operands. -/

namespace Sys2Proof

/-- The five durations that occur (R118). -/
def delayOccurs (us : DelayUs) : Bool :=
  us = 280 || us = 40 || us = 9680 || us = 1000000 || us = 60000000

/-- The kinds a diagnostic event carries: a code of R116 other than 0 and 4, 9 to 15 being reserved (R117). -/
def diagKindOccurs (kind : BitVec 4) : Bool :=
  1 ≤ kind.toNat && kind.toNat ≤ 8 && kind.toNat ≠ 4

/-- The values that are sent to persistence (R115): kind 1 to 3 with the numerator range of the kind;
kind 0, `NONE`, is never sent. -/
def valueOccurs (vkind : Vkind) (vnum : Vnum) : Bool :=
  match vkind.toNat with
  | 1 => -32768 ≤ vnum.toInt && vnum.toInt ≤ 32767
  | 2 => 0 ≤ vnum.toInt && vnum.toInt ≤ 1424016
  | 3 => -7892921718 ≤ vnum.toInt && vnum.toInt ≤ 160577316702
  | _ => false

/-- Id 0 is never the key of a record (R84). -/
def recordSidOccurs (sid : Sid) : Bool := sid ≠ 0

/-- Well-formed instructions: every operand has a value the spec says the SAE produces. -/
def Instr.wf : Instr → Bool
  | .insertReading sid vkind vnum => recordSidOccurs sid && valueOccurs vkind vnum
  | .delay us => delayOccurs us
  | .diag _ kind => diagKindOccurs kind
  | .initReset | .initEnum | .idle | .startConversion | .awaitConversion | .rtCmd | .rtByte | .rtCheck
  | .rtPersist | .dsLedOn | .dsHoldRise | .dsSample | .dsHoldPulse | .dsLedOff | .dsHoldSettle | .dsConvert
  | .dsPersist | .hmSample | .hmPersist | .sleep | .fault | .resetBus | .enumerateNext _ | .transaction _ _
  | .readByte | .digitalWrite _ | .analogRead _ => true

end Sys2Proof
end

