-- ==== Sys2Proof/Decode.lean ====
section
/-! DEFINITION. The encodings of `30_encoding.md`: the state codes (R100), the sequencing words (R101), the
request codes (R120, R122, R123), value packing (R115) and the diagnostic event (R117); the decoder,
total and rejecting by name; after it the encoder; and the rows of spec/opcode_table.json. -/

namespace Sys2Proof

/-! ## State codes (R100) -/

def stInitReset : BitVec 4 := 0
def stInitEnum : BitVec 4 := 1
def stIdle : BitVec 4 := 2
def stStartConversion : BitVec 4 := 3
def stAwaitConversion : BitVec 4 := 4
def stReadTemperature : BitVec 4 := 5
def stReadDust : BitVec 4 := 6
def stReadHumidity : BitVec 4 := 7
def stSleep : BitVec 4 := 8
def stFault : BitVec 4 := 9

/-! ## What is encoded -/

/-- An encoded instruction, one constructor for each format of R128. A request's operands are the operand
signals of R73; signals an operation does not name are don't-care (R120). -/
inductive CodeWord where
  | seq (w : SeqWord)
  | busReq (op : BitVec 3) (cont : BitVec 1) (cmd : Byte) (addr : Address)
  | pinReq (op : BitVec 1) (level : BitVec 1) (ch : BitVec 1)
  | persReq (sid : Sid) (value : ValueWord)
  | dlyReq (us : DelayUs)
  | diagEvent (sid : Sid) (kind : BitVec 4)
  deriving DecidableEq, Repr

/-- Why a word is rejected: the reserved encodings of R124 and R125. -/
inductive DecodeError where
  /-- one of the 235 sequencing words outside the table of R101 (R124) -/
  | reservedSeqWord (w : SeqWord)
  /-- `bus_op` 4 to 7 (R120) -/
  | reservedBusOp (op : BitVec 3)
  /-- `vkind` 0 on the persistence port (R115, R125) -/
  | noValue
  /-- a diagnostic kind that is 0, 4 or 9 to 15 (R116, R117) -/
  | reservedDiagKind (kind : BitVec 4)
  deriving DecidableEq, Repr

/-! ## Field helpers -/

/-- `{vkind[1:0], vnum[38:0]}` (R115). -/
def packValue (vkind : Vkind) (vnum : Vnum) : ValueWord := vkind ++ vnum

def valueKind (v : ValueWord) : Vkind := v.extractLsb' 39 2

def valueNum (v : ValueWord) : Vnum := v.extractLsb' 0 39

/-- `W = {st, ph}` (R101). -/
def packSeq (st ph : BitVec 4) : SeqWord := st ++ ph

def seqSt (w : SeqWord) : BitVec 4 := w.extractLsb' 4 4

def seqPh (w : SeqWord) : BitVec 4 := w.extractLsb' 0 4

/-- The channel code of `pin_ch` (R122). -/
def decodeChannel (ch : BitVec 1) : Channel := if ch = 0 then .dust else .hum

def encodeChannel : Channel → BitVec 1
  | .dust => 0
  | .hum => 1

/-! ## The decoder -/

/-- The 21 micro-operations by sequencing word (R101). -/
def seqTable : List (SeqWord × Instr) :=
  [ (0x00, .initReset), (0x10, .initEnum), (0x20, .idle), (0x30, .startConversion),
    (0x40, .awaitConversion),
    (0x50, .rtCmd), (0x51, .rtByte), (0x52, .rtCheck), (0x53, .rtPersist),
    (0x60, .dsLedOn), (0x61, .dsHoldRise), (0x62, .dsSample), (0x63, .dsHoldPulse),
    (0x64, .dsLedOff), (0x65, .dsHoldSettle), (0x66, .dsConvert), (0x67, .dsPersist),
    (0x70, .hmSample), (0x71, .hmPersist), (0x80, .sleep), (0x90, .fault) ]

/-- Decoding of the sequencing word: exact and total (R102). -/
def decodeSeq (w : SeqWord) : Except DecodeError Instr :=
  match seqTable.find? (fun row => row.1 == w) with
  | some row => .ok row.2
  | none => .error (.reservedSeqWord w)

/-- Decoding of a bus request (R120). -/
def decodeBusReq (op : BitVec 3) (cont : BitVec 1) (cmd : Byte) (addr : Address) :
    Except DecodeError Instr :=
  match op.toNat with
  | 0 => .ok .resetBus
  | 1 => .ok (.enumerateNext (cont == 1))
  | 2 => .ok (.transaction cmd addr)
  | 3 => .ok .readByte
  | _ => .error (.reservedBusOp op)

/-- Decoding of a pin request (R122). -/
def decodePinReq (op level ch : BitVec 1) : Instr :=
  if op = 0 then .digitalWrite (level == 1) else .analogRead (decodeChannel ch)

/-- Decoding of a persistence request (R123, R115). -/
def decodePersReq (sid : Sid) (value : ValueWord) : Except DecodeError Instr :=
  if valueKind value = 0 then .error .noValue
  else .ok (.insertReading sid (valueKind value) (valueNum value))

/-- Decoding of a diagnostic event (R117). -/
def decodeDiag (sid : Sid) (kind : BitVec 4) : Except DecodeError Instr :=
  if diagKindOccurs kind then .ok (.diag sid kind) else .error (.reservedDiagKind kind)

/-- The decoder of every format (R102, R128). -/
def decode : CodeWord → Except DecodeError Instr
  | .seq w => decodeSeq w
  | .busReq op cont cmd addr => decodeBusReq op cont cmd addr
  | .pinReq op level ch => .ok (decodePinReq op level ch)
  | .persReq sid value => decodePersReq sid value
  | .dlyReq us => .ok (.delay us)
  | .diagEvent sid kind => decodeDiag sid kind

/-- The instruction in a table word of `nbits` bits, bit 0 the least significant. The one word the machine
fetches is the sequencing word, so the word is read in format SEQ; the request rows are selected by other
signals, and a bare word cannot tell their format (notes/assumptions/11.md). -/
def decodeTableWord (nbits w : Nat) : Option Instr :=
  let bits := w % 2 ^ nbits
  if bits < 256 then (decodeSeq (BitVec.ofNat 8 bits)).toOption else none

/-! ## The encoder -/

/-- The encoding of an instruction, from the tables of R101, R120, R122, R123 and R117. Operand signals the
operation does not name are 0 (DESIGN CHOICE, notes/assumptions/17.md). -/
def encode : Instr → CodeWord
  | .initReset => .seq (packSeq stInitReset 0)
  | .initEnum => .seq (packSeq stInitEnum 0)
  | .idle => .seq (packSeq stIdle 0)
  | .startConversion => .seq (packSeq stStartConversion 0)
  | .awaitConversion => .seq (packSeq stAwaitConversion 0)
  | .rtCmd => .seq (packSeq stReadTemperature 0)
  | .rtByte => .seq (packSeq stReadTemperature 1)
  | .rtCheck => .seq (packSeq stReadTemperature 2)
  | .rtPersist => .seq (packSeq stReadTemperature 3)
  | .dsLedOn => .seq (packSeq stReadDust 0)
  | .dsHoldRise => .seq (packSeq stReadDust 1)
  | .dsSample => .seq (packSeq stReadDust 2)
  | .dsHoldPulse => .seq (packSeq stReadDust 3)
  | .dsLedOff => .seq (packSeq stReadDust 4)
  | .dsHoldSettle => .seq (packSeq stReadDust 5)
  | .dsConvert => .seq (packSeq stReadDust 6)
  | .dsPersist => .seq (packSeq stReadDust 7)
  | .hmSample => .seq (packSeq stReadHumidity 0)
  | .hmPersist => .seq (packSeq stReadHumidity 1)
  | .sleep => .seq (packSeq stSleep 0)
  | .fault => .seq (packSeq stFault 0)
  | .resetBus => .busReq 0 0 0 0
  | .enumerateNext cont => .busReq 1 (BitVec.ofBool cont) 0 0
  | .transaction cmd addr => .busReq 2 0 cmd addr
  | .readByte => .busReq 3 0 0 0
  | .digitalWrite level => .pinReq 0 (BitVec.ofBool level) 0
  | .analogRead ch => .pinReq 1 0 (encodeChannel ch)
  | .insertReading sid vkind vnum => .persReq sid (packValue vkind vnum)
  | .delay us => .dlyReq us
  | .diag sid kind => .diagEvent sid kind

/-- A word with the operand signals its operation does not name set to 0: the words of one instruction are
those with the same canonical form (R120). -/
def canonicalWord : CodeWord → CodeWord
  | .busReq op cont cmd addr =>
    if op = 1 then .busReq op cont 0 0 else if op = 2 then .busReq op 0 cmd addr else .busReq op 0 0 0
  | .pinReq op level ch => if op = 0 then .pinReq op level 0 else .pinReq op 0 ch
  | .seq w => .seq w
  | .persReq sid value => .persReq sid value
  | .dlyReq us => .dlyReq us
  | .diagEvent sid kind => .diagEvent sid kind

/-! ## The opcode table -/

/-- The formats of R128. -/
inductive Format where
  | seq
  | busReq
  | pinReq
  | persReq
  | dlyReq
  | diag
  deriving DecidableEq, Repr

/-- A row of spec/opcode_table.json: its mnemonic, format, and the pattern its opcode bits match under a mask. -/
structure Row where
  mnemonic : String
  format : Format
  pattern : Nat
  mask : Nat
  deriving DecidableEq, Repr

/-- The row of an instruction (R128). -/
def Instr.row : Instr → Row
  | .initReset => ⟨"INIT_RESET", .seq, 0x00, 0xFF⟩
  | .initEnum => ⟨"INIT_ENUM", .seq, 0x10, 0xFF⟩
  | .idle => ⟨"IDLE", .seq, 0x20, 0xFF⟩
  | .startConversion => ⟨"START_CONVERSION", .seq, 0x30, 0xFF⟩
  | .awaitConversion => ⟨"AWAIT_CONVERSION", .seq, 0x40, 0xFF⟩
  | .rtCmd => ⟨"RT_CMD", .seq, 0x50, 0xFF⟩
  | .rtByte => ⟨"RT_BYTE", .seq, 0x51, 0xFF⟩
  | .rtCheck => ⟨"RT_CHECK", .seq, 0x52, 0xFF⟩
  | .rtPersist => ⟨"RT_PERSIST", .seq, 0x53, 0xFF⟩
  | .dsLedOn => ⟨"DS_LED_ON", .seq, 0x60, 0xFF⟩
  | .dsHoldRise => ⟨"DS_HOLD_RISE", .seq, 0x61, 0xFF⟩
  | .dsSample => ⟨"DS_SAMPLE", .seq, 0x62, 0xFF⟩
  | .dsHoldPulse => ⟨"DS_HOLD_PULSE", .seq, 0x63, 0xFF⟩
  | .dsLedOff => ⟨"DS_LED_OFF", .seq, 0x64, 0xFF⟩
  | .dsHoldSettle => ⟨"DS_HOLD_SETTLE", .seq, 0x65, 0xFF⟩
  | .dsConvert => ⟨"DS_CONVERT", .seq, 0x66, 0xFF⟩
  | .dsPersist => ⟨"DS_PERSIST", .seq, 0x67, 0xFF⟩
  | .hmSample => ⟨"HM_SAMPLE", .seq, 0x70, 0xFF⟩
  | .hmPersist => ⟨"HM_PERSIST", .seq, 0x71, 0xFF⟩
  | .sleep => ⟨"SLEEP", .seq, 0x80, 0xFF⟩
  | .fault => ⟨"FAULT", .seq, 0x90, 0xFF⟩
  | .resetBus => ⟨"RESET_BUS", .busReq, 0x0, 0x7⟩
  | .enumerateNext _ => ⟨"ENUMERATE_NEXT", .busReq, 0x1, 0x7⟩
  | .transaction _ _ => ⟨"TRANSACTION", .busReq, 0x2, 0x7⟩
  | .readByte => ⟨"READ_BYTE", .busReq, 0x3, 0x7⟩
  | .digitalWrite _ => ⟨"DIGITAL_WRITE", .pinReq, 0x0, 0x1⟩
  | .analogRead _ => ⟨"ANALOG_READ", .pinReq, 0x1, 0x1⟩
  | .insertReading _ _ _ => ⟨"INSERT_READING", .persReq, 0x0, 0x0⟩
  | .delay _ => ⟨"DELAY", .dlyReq, 0x0, 0x0⟩
  | .diag _ _ => ⟨"DIAG", .diag, 0x0, 0x0⟩

/-- The format of an encoded word. -/
def CodeWord.format : CodeWord → Format
  | .seq _ => .seq
  | .busReq _ _ _ _ => .busReq
  | .pinReq _ _ _ => .pinReq
  | .persReq _ _ => .persReq
  | .dlyReq _ => .dlyReq
  | .diagEvent _ _ => .diag

/-- The opcode bits of an encoded word: `W`, `bus_op` or `pin_op`; the other ports have none (mask 0). -/
def CodeWord.opcode : CodeWord → Nat
  | .seq w => w.toNat
  | .busReq op _ _ _ => op.toNat
  | .pinReq op _ _ => op.toNat
  | .persReq _ _ => 0
  | .dlyReq _ => 0
  | .diagEvent _ _ => 0

/-- The word is in the row's format and its opcode bits match the row's pattern. -/
def Row.admits (r : Row) (c : CodeWord) : Bool :=
  c.format = r.format && (c.opcode &&& r.mask) = r.pattern

end Sys2Proof
end

