-- ==== Sys2Proof/Machine/Constants.lean ====
section
/-! DEFINITION. The fixed constants of `00_scope.md` R12. Decimals of the document are exact rationals (R15). -/

namespace Sys2Proof.Machine

/-- `N_DUST`, the batch size. -/
def nDust : Nat := 16

/-- `ADC_MAX`. -/
def adcMax : Nat := 1023

/-- `V_REF` in volts. -/
def vRef : ℚ := 5

/-- `TEMP_LSB` in degrees Celsius. -/
def tempLsb : ℚ := 1 / 16

/-- `SCRATCH_LEN` in bytes. -/
def scratchLen : Nat := 9

/-- `ADDR_LEN` in bytes. -/
def addrLen : Nat := 8

/-- `T_RISE_US`. -/
def tRise : DelayUs := 280

/-- `T_PULSE_US`. -/
def tPulse : DelayUs := 40

/-- `T_SETTLE_US`. -/
def tSettle : DelayUs := 9680

/-- `T_CONV_US`. -/
def tConv : DelayUs := 1000000

/-- `T_SLEEP_US`. -/
def tSleep : DelayUs := 60000000

/-- `DUST_LO` in volts. -/
def dustLo : ℚ := 3 / 5

/-- `DUST_HI` in volts. -/
def dustHi : ℚ := 7 / 2

/-- `DUST_DIV`. -/
def dustDiv : ℚ := 29 / 5

/-- `DUST_SAT`. -/
def dustSat : ℚ := 3 / 5

/-- `HUM_A2`. -/
def humA2 : ℚ := 1253 / 1000

/-- `HUM_A1`. -/
def humA1 : ℚ := 25931 / 1000

/-- `HUM_A0`. -/
def humA0 : ℚ := -7542 / 1000

end Sys2Proof.Machine
end

