-- ==== Sys2Proof/Machine/State.lean ====
section
/-! DEFINITION. The state of the machine as `10_state.md` R30 lists it, the answers the environment is still
to give, the observation of `00_scope.md` R11, the reasons a step can stop, and the state after reset (R47). -/

namespace Sys2Proof.Machine

/-! ## Results of calls -/

/-- `reset_bus() => Ok | NoDevices | DataError` (R63). -/
inductive ResetResult where
  | ok
  | noDevices
  | dataError
  deriving DecidableEq, Repr

/-- `enumerate_next(cont) => Addr(a) | NoDevice` (R64). -/
inductive EnumResult where
  | addr (a : Address)
  | noDevice
  deriving DecidableEq, Repr

/-- `Ok | Error`, the result of a digital write (R68) and of an insert (R70). -/
inductive Status where
  | ok
  | error
  deriving DecidableEq, Repr

/-- The returned value of a call, as the trace records it (R11). `done` is the result `()` of a transaction
or a delay (R65, R71). -/
inductive Result where
  | reset (r : ResetResult)
  | enum (r : EnumResult)
  | done
  | byte (b : Byte)
  | status (r : Status)
  | count (r : Count)
  deriving DecidableEq, Repr

/-- One element of the trace (R11, R18): a call with its returned value, or a diagnostic event (R72). -/
inductive Event where
  | call (req : Request) (result : Result)
  | diag (sid : Sid) (kind : BitVec 4)
  deriving DecidableEq, Repr

/-! ## Answers of the environment, at signal level (R73) -/

/-- `bus_status`, `bus_rdata`, `bus_raddr` in the cycle of `bus_ack`. -/
structure BusAnswer where
  status : BitVec 2
  rdata : Byte
  raddr : Address
  deriving DecidableEq, Repr

/-- `pin_err`, `adc_data` in the cycle of `pin_ack`. -/
structure PinAnswer where
  err : Bool
  adc : Count
  deriving DecidableEq, Repr

/-- `pers_err` in the cycle of `pers_ack`. -/
structure PersAnswer where
  err : Bool
  deriving DecidableEq, Repr

/-! ## The state -/

/-- The state (R30). The first block is the spec's tuple, each register at its width; the second is the
model's own (INVENTORY.md, State): the parameters, the answers still to come, oldest first, and the trace,
oldest event first. -/
structure State where
  /-- controller state (R31) -/
  st : BitVec 4
  /-- phase inside a composite state (R31) -/
  ph : BitVec 4
  /-- fault policy, from the strap at reset (R33) -/
  pol : Policy
  /-- number of addresses enumerated (R35) -/
  eidx : BitVec 8
  /-- probe index (R34) -/
  pidx : BitVec 8
  /-- `ADDR[0..N_PROBES-1]` (R36) -/
  addr : List Address
  /-- `SP[0..8]` (R37) -/
  sp : Vector Byte 9
  /-- scratchpad bytes read (R38) -/
  bcnt : BitVec 4
  /-- dust samples completed (R39) -/
  k : BitVec 5
  /-- `S`, the batch sum (R40) -/
  sum : BitVec 14
  /-- kind of `val` (R41) -/
  vkind : Vkind
  /-- numerator of `val` (R41) -/
  vnum : Vnum
  /-- fault flag (R42) -/
  fault : Bool
  /-- error kind code of the failure that entered `FAULT` (R42) -/
  faultCode : BitVec 4
  /-- sensor id of that failure (R42) -/
  faultSid : Sid
  /-- parameters (R12); no step changes them (notes/assumptions/4.md) -/
  cfg : Config
  /-- answers of the bus driver to come (notes/assumptions/1.md) -/
  busIn : List BusAnswer
  /-- answers of the pin driver to come (notes/assumptions/1.md) -/
  pinIn : List PinAnswer
  /-- answers of persistence to come (notes/assumptions/1.md) -/
  persIn : List PersAnswer
  /-- completions of delay calls to come; a completion carries no value (R123) -/
  dlyIn : Nat
  /-- the trace so far (R11, notes/assumptions/3.md) -/
  trace : List Event
  deriving DecidableEq, Repr

/-- Why a step stops. No run from reset raises either (R45, R48); both are safe, since the model stops where
the spec names no storage (notes/assumptions/9.md). -/
inductive Fault where
  /-- Raised by `START_CONVERSION`, `RT_CMD` and `INIT_ENUM` when they name an entry of `ADDR` that does not
  exist (R36: entries 0 to N_PROBES-1). Safe. -/
  | addrSlotAbsent
  /-- Raised by `RT_BYTE` when it names a byte of `SP` that does not exist (R37: bytes 0 to 8). Safe. -/
  | scratchOffsetAbsent
  deriving DecidableEq, Repr

/-- Why an instruction has no meaning. -/
inductive Refusal where
  /-- Raised by an arm of `exec` whose instruction has no meaning yet; there is no such arm. Safe. -/
  | notModelled (mnemonic : String)
  deriving DecidableEq, Repr

/-! ## Reset -/

/-- The state after reset of a block with parameters `cfg` and the strap at `strap` (R47, R280): no event
emitted, no call pending, and no answer given yet. `ADDR` and `SP`, which R47 leaves unspecified, hold zeros
(DESIGN CHOICE, unsafe: notes/assumptions/6.md). -/
def State.resetWith (cfg : Config) (strap : Policy) : State :=
  { st := 0, ph := 0, pol := strap, eidx := 0, pidx := 0,
    addr := List.replicate cfg.nProbes 0, sp := Vector.replicate 9 0,
    bcnt := 0, k := 0, sum := 0, vkind := 0, vnum := 0,
    fault := false, faultCode := 0, faultSid := 0,
    cfg := cfg, busIn := [], pinIn := [], persIn := [], dlyIn := 0, trace := [] }

/-- The machine right after reset: the normative instance, strap `RECOVER` (R12; notes/assumptions/4.md). -/
def State.reset : State := State.resetWith Config.normative .recover

end Sys2Proof.Machine
end

