-- ==== Sys2Proof/Machine/Operands.lean ====
section
/-! DEFINITION. Operand forms: byte strings and the CRC-8 (R143, R144), the temperature field (R146, R147),
voltage (R171), the dust curve and its integer form (R181 to R183), the humidity curve and its integer form
(R201, R203), sensor ids (R84, R127), value denominators (R115), error codes (R116), and the reading of
a collaborator's answer signals (R121, R122, R123). -/

namespace Sys2Proof.Machine

/-! ## Widths -/

/-- A natural number in a register of `w` bits: exact where it fits (R15), a free value where it does not, which
no reachable state shows (notes/assumptions/10.md). -/
def narrow (w n : Nat) : BitVec w := if n < 2 ^ w then BitVec.ofNat w n else Config.beyondWidth w n

/-! ## Byte strings -/

/-- Byte `i` of an address, in bits `[8i+7:8i]` (R75, R110). -/
def addrByte (a : Address) (i : Nat) : Byte := a.extractLsb' (8 * i) 8

/-- The bytes of an address, byte 0 first. -/
def addrBytes (a : Address) : List Byte := (List.range addrLen).map (addrByte a)

/-- The address of a byte string, byte 0 first (R75). -/
def addrOfBytes (bs : List Byte) : Address :=
  bs.foldr (fun b acc => (acc <<< 8) ||| b.setWidth 64) 0

/-- Bytes 0 to 7 of a scratchpad frame, the bytes the CRC covers (R111). -/
def framePayload (sp : Vector Byte 9) : Vector Byte 8 :=
  #v[sp[0], sp[1], sp[2], sp[3], sp[4], sp[5], sp[6], sp[7]]

/-! ## CRC-8 -/

/-- The inner loop of R144's pseudocode, `n` bits to go: the register `c`, the byte `b` shifted so far. -/
def crcBits : Nat → Byte → Byte → Byte
  | 0, c, _ => c
  | n + 1, c, b =>
    let mix := c.getLsbD 0 ^^ b.getLsbD 0
    let c' := c >>> 1
    crcBits n (if mix then c' ^^^ 0x8C else c') (b >>> 1)

/-- The register `c` after one byte (R144). -/
def crcByte (c b : Byte) : Byte := crcBits 8 c b

/-- The register run over a byte string from `0x00`, byte 0 first (R144). -/
def crcRegister (bs : List Byte) : Byte := bs.foldl crcByte 0x00

/-- The default `CRC8` (R144). -/
def crcOneWire (x : Vector Byte 8) : Byte := crcRegister x.toList

/-- `CRC8`, the parameter of the configuration (R143, R67). -/
def crc8 (cfg : Config) (x : Vector Byte 8) : Byte :=
  match cfg.crc with
  | .oneWire => crcOneWire x
  | .driver => Config.driverCrc8 x

/-- A byte string with bit `j % 8` of byte `i` inverted (R143). -/
def flipBit (x : Vector Byte 8) (i : Fin 8) (j : Fin 8) : Vector Byte 8 :=
  x.set i (x[i] ^^^ (1#8 <<< j.val))

/-- The property R143 asks of whatever function is supplied: every single-bit change is seen. -/
def DetectsSingleBit (f : Vector Byte 8 → Byte) : Prop :=
  ∀ (x : Vector Byte 8) (i j : Fin 8), f (flipBit x i j) ≠ f x

/-! ## Temperature -/

/-- `raw = {b1, b0}` (R74, R112). -/
def rawField (b0 b1 : Byte) : BitVec 16 := b1 ++ b0

/-- `sext_16({b1, b0})` (R146). -/
def decodeRaw (b0 b1 : Byte) : Int := (rawField b0 b1).toInt

/-- `t16 / 16` degrees Celsius, exact (R147). -/
def tempQ (t16 : Int) : ℚ := t16 * tempLsb

/-! ## Voltage and dust -/

/-- The voltage a count stands for, `5r / 1023` (R113, R171). -/
def volt (r : Nat) : ℚ := vRef * r / adcMax

/-- The response curve of the dust sensor on any mean voltage (R181): both comparisons are `≤`. -/
def dustCurve (m : ℚ) : ℚ :=
  if m ≤ dustLo then 0 else if m ≤ dustHi then (m - dustLo) / dustDiv else dustSat

/-- The mean voltage of a batch with sum `S`, `5S / 16368` (R182). -/
def dustMean (S : Nat) : ℚ := vRef * S / (nDust * adcMax)

/-- The density of a batch with sum `S` (R183). -/
def dustOfSum (S : Nat) : ℚ := dustCurve (dustMean S)

/-- The numerator of the density over 2 373 360, the integer form of R183. -/
def dustNum (S : Nat) : Int :=
  if S ≤ 1964 then 0 else if S ≤ 11457 then 125 * S - 245520 else 1424016

/-! ## Humidity -/

/-- The response curve of the humidity sensor on any voltage (R201). -/
def humCurve (v : ℚ) : ℚ := humA2 * v ^ 2 + humA1 * v + humA0

/-- The humidity of a count (R203). -/
def humOfCount (r : Nat) : ℚ := humCurve (volt r)

/-- The numerator of the humidity over 1 046 529 000, the integer form of R203. -/
def humNum (r : Nat) : Int := 31325 * r * r + 132637065 * r - 7892921718

/-! ## Values -/

/-- The kinds of a value (R115). -/
def vkNone : Vkind := 0
def vkTemp : Vkind := 1
def vkDust : Vkind := 2
def vkHum : Vkind := 3

/-- `den(vkind)` (R115); `NONE` means no value. -/
def vden (vkind : Vkind) : Option Nat :=
  match vkind.toNat with
  | 1 => some 16
  | 2 => some 2373360
  | 3 => some 1046529000
  | _ => none

/-- The rational a value means, `vnum / den(vkind)` (R115, R41). -/
def valueQ (vkind : Vkind) (vnum : Vnum) : Option ℚ :=
  (vden vkind).map fun d => (vnum.toInt : ℚ) / d

/-- A numerator on its 39 bits (R115). -/
def vnumOf (n : Int) : Vnum := BitVec.ofInt 39 n

/-! ## Sensor ids (R84, R127) -/

/-- The id of a diagnostic that belongs to no sensor (R84). -/
def sidNone : Sid := 0

/-- `sid_temp(k) = k + 1`. -/
def sidTemp (k : BitVec 8) : Sid := narrow 8 (k.toNat + 1)

/-- `sid_dust = N_PROBES + 1`. -/
def sidDust (cfg : Config) : Sid := BitVec.ofNat 8 (cfg.nProbes + 1)

/-- `sid_hum = N_PROBES + 2`. -/
def sidHum (cfg : Config) : Sid := BitVec.ofNat 8 (cfg.nProbes + 2)

/-! ## Error kinds -/

/-- The code of an error kind (R116); 0 is `NONE`. -/
def errorCode : ErrorKind → BitVec 4
  | .noDevicesFound => 1
  | .insufficientDevices => 2
  | .busDataError => 3
  | .pinInitError => 4
  | .pinWriteError => 5
  | .crcMismatch => 6
  | .batchCollectionError => 7
  | .persistenceError => 8

/-- The kinds that are fatal under either policy (R257). -/
def isFatal : ErrorKind → Bool
  | .noDevicesFound | .insufficientDevices | .busDataError => true
  | .pinInitError | .pinWriteError | .crcMismatch | .batchCollectionError | .persistenceError => false

/-! ## Answer signals

A status outside the call's signature is mapped as R121 says an implementation does (DESIGN CHOICE,
notes/assumptions/8.md). -/

/-- The result of `reset_bus` (R121): status 3 reads as `DataError`. -/
def resetResult (a : BusAnswer) : ResetResult :=
  if a.status = 0 then .ok else if a.status = 1 then .noDevices else .dataError

/-- The result of `enumerate_next` (R121): statuses 2 and 3 read as `NoDevice`. -/
def enumResult (a : BusAnswer) : EnumResult :=
  if a.status = 0 then .addr a.raddr else .noDevice

/-- The byte of `read_byte`, whatever the status (R121). -/
def byteResult (a : BusAnswer) : Byte := a.rdata

/-- The result of a digital write; the count is not looked at (R122). -/
def writeResult (a : PinAnswer) : Status := if a.err then .error else .ok

/-- The count of an analog read; the error bit is not looked at (R122). -/
def countResult (a : PinAnswer) : Count := a.adc

/-- The result of an insert (R123). -/
def insertResult (a : PersAnswer) : Status := if a.err then .error else .ok

end Sys2Proof.Machine
end

