-- ==== Sys2Proof/Machine/Flags.lean ====
section
/-! DEFINITION. The predicates of `10_state.md` R43, computed inside one step and not stored. The SAE has no
condition codes. -/

namespace Sys2Proof.Machine

/-- `neg = SP[1][7]`, the sign of the temperature field (R43). -/
def negFlag (s : State) : Bool := s.sp[1][7]

/-- `crc_match = (CRC8(SP[0..7]) = SP[8])` (R43, R145). -/
def crcMatch (s : State) : Bool := crc8 s.cfg (framePayload s.sp) == s.sp[8]

/-- `last_probe = (pidx + 1 = N_PROBES)` (R43). -/
def lastProbe (s : State) : Bool := s.pidx.toNat + 1 = s.cfg.nProbes

end Sys2Proof.Machine
end

