-- ==== Sys2Proof/Machine/Ops.lean ====
section
/-! DEFINITION. The shared operations: writes of registers and of the two indexed stores, the trace, the calls
on the collaborators (`20_memory.md` R62 to R72), raising a failure and entering `FAULT`
(`60_exceptions.md` R256, R258), the probe advance (R218), the failed batch (R179), the reserved
sequencing word (R124) and the reset input (R280). -/

namespace Sys2Proof.Machine

/-- The outcome of a step or an instruction. -/
abbrev Out := Host.Outcome State Fault Refusal

/-! ## Registers and indexed stores -/

/-- `st <- x`. -/
def State.setSt (s : State) (x : BitVec 4) : State := { s with st := x }

/-- `ph <- y`. -/
def State.setPh (s : State) (y : BitVec 4) : State := { s with ph := y }

/-- `st <- x; ph <- y`. -/
def State.goto (s : State) (x y : BitVec 4) : State := { s with st := x, ph := y }

/-- `val <- (kind, n)` (R41). -/
def State.setVal (s : State) (kind : Vkind) (n : Int) : State := { s with vkind := kind, vnum := vnumOf n }

/-- The sequencing word `W = {st, ph}` (R101). -/
def State.seqWord (s : State) : SeqWord := packSeq s.st s.ph

/-- `ADDR[i]`, which exists for `i < N_PROBES` (R36). -/
def State.readAddr (s : State) (i : BitVec 8) : Option Address := s.addr[i.toNat]?

/-- `ADDR[i] <- a` (R36). -/
def State.writeAddr (s : State) (i : BitVec 8) (a : Address) : Option State :=
  if i.toNat < s.addr.length then some { s with addr := s.addr.set i.toNat a } else none

/-- `SP[i]`, which exists for `i < 9` (R37). -/
def State.readSp (s : State) (i : Nat) : Option Byte := s.sp[i]?

/-- `SP[i] <- b` (R37). -/
def State.writeSp (s : State) (i : Nat) (b : Byte) : Option State :=
  if h : i < 9 then some { s with sp := s.sp.set i b } else none

/-! ## The trace -/

/-- A call with its returned value is appended to the trace (R11). -/
def State.record (s : State) (req : Request) (result : Result) : State :=
  { s with trace := s.trace ++ [.call req result] }

/-- A diagnostic event is emitted; it has no response (R72). -/
def State.emit (s : State) (sid : Sid) (kind : BitVec 4) : State :=
  { s with trace := s.trace ++ [.diag sid kind] }

/-! ## Calls

A call takes the next answer of its port and records itself with the result; `none` means that the collaborator
has not answered (R62). -/

/-- The next answer of the bus driver. -/
def State.takeBus (s : State) : Option (BusAnswer × State) :=
  match s.busIn with
  | [] => none
  | a :: rest => some (a, { s with busIn := rest })

/-- The next answer of the pin driver. -/
def State.takePin (s : State) : Option (PinAnswer × State) :=
  match s.pinIn with
  | [] => none
  | a :: rest => some (a, { s with pinIn := rest })

/-- The next answer of persistence. -/
def State.takePers (s : State) : Option (PersAnswer × State) :=
  match s.persIn with
  | [] => none
  | a :: rest => some (a, { s with persIn := rest })

/-- The next completion of a delay. -/
def State.takeDelay (s : State) : Option State :=
  match s.dlyIn with
  | 0 => none
  | n + 1 => some { s with dlyIn := n }

/-- `bus.reset_bus()` (R63). -/
def callResetBus (s : State) : Option (ResetResult × State) :=
  s.takeBus.map fun (a, s') => (resetResult a, s'.record .resetBus (.reset (resetResult a)))

/-- `bus.enumerate_next(cont)` (R64). -/
def callEnumerateNext (cont : Bool) (s : State) : Option (EnumResult × State) :=
  s.takeBus.map fun (a, s') => (enumResult a, s'.record (.enumerateNext cont) (.enum (enumResult a)))

/-- `bus.transaction(cmd, addr)`: no value and no failure, whatever the status (R65, R121). -/
def callTransaction (cmd : Byte) (addr : Address) (s : State) : Option (Unit × State) :=
  s.takeBus.map fun (_, s') => ((), s'.record (.transaction cmd addr) .done)

/-- `bus.read_byte()` (R66); after a read-scratchpad transaction this is `MemRead` of R17. -/
def callReadByte (s : State) : Option (Byte × State) :=
  s.takeBus.map fun (a, s') => (byteResult a, s'.record .readByte (.byte (byteResult a)))

/-- `pin.digital_write(PIN_LED, level)` (R68). -/
def callDigitalWrite (level : Bool) (s : State) : Option (Status × State) :=
  s.takePin.map fun (a, s') => (writeResult a, s'.record (.digitalWrite level) (.status (writeResult a)))

/-- `pin.analog_read(ch)` (R69). -/
def callAnalogRead (ch : Channel) (s : State) : Option (Count × State) :=
  s.takePin.map fun (a, s') => (countResult a, s'.record (.analogRead ch) (.count (countResult a)))

/-- `pers.insert_reading(sid, value)` (R70), the `MemWrite` of R17. -/
def callInsertReading (sid : Sid) (vkind : Vkind) (vnum : Vnum) (s : State) : Option (Status × State) :=
  s.takePers.map fun (a, s') =>
    (insertResult a, s'.record (.insertReading sid vkind vnum) (.status (insertResult a)))

/-- `delay(us)` (R71). -/
def callDelay (us : DelayUs) (s : State) : Option (Unit × State) :=
  s.takeDelay.map fun s' => ((), s'.record (.delay us) .done)

/-- A call micro-operation blocks until the call is answered, then goes on as a function of the old state and
the returned value (R10, R62). Not answered: it stays in the calling micro-operation and nothing changes
(DEDUCED, notes/assumptions/2.md). -/
def State.await {α : Type} (s : State) (call : Option (α × State)) (onReturn : α → State → Out) : Out :=
  match call with
  | none => .next s
  | some (r, s') => onReturn r s'

/-! ## Failures -/

/-- Entry to `FAULT`: these five writes and nothing else (R258). There is no return (R264). -/
def State.enterFault (s : State) (e : ErrorKind) (sid : Sid) : State :=
  { s with fault := true, faultCode := errorCode e, faultSid := sid, st := stFault, ph := 0 }

/-- `raise E(sid)` (R256): the diagnostic event; then for `PinWriteError` back to the caller; then entry to
`FAULT` if the kind is fatal or the policy is `HALT`; else the failure successor `onward`. -/
def State.raise (s : State) (e : ErrorKind) (sid : Sid) (onward : State → State) : State :=
  let s' := s.emit sid (errorCode e)
  if e = .pinWriteError then onward s'
  else if isFatal e || s.pol = .halt then s'.enterFault e sid
  else onward s'

/-- A fatal kind has no failure successor under either policy (R257). -/
def State.raiseFatal (s : State) (e : ErrorKind) : State := s.raise e sidNone id

/-- A failed emitter write: `PinWriteError` as a diagnostic only, then `BatchCollectionError`; under `RECOVER`
on to `READ_HUMIDITY` (R179, R260, R261). -/
def State.batchFailure (s : State) : State :=
  s.raise .pinWriteError (sidDust s.cfg) fun s =>
    s.raise .batchCollectionError (sidDust s.cfg) fun s => s.goto stReadHumidity 0

/-- What a reserved sequencing word does in an implementation: to `FAULT`, `fault_code` unchanged, no event
(R124, D21). The flag `fault` is set, as on every entry to `FAULT` (R42); `fault_sid` is unchanged
(DEDUCED, notes/assumptions/7.md). -/
def State.reservedWord (s : State) : State := { s with fault := true, st := stFault, ph := 0 }

/-! ## Sequencing shared by several micro-operations -/

/-- Entry to `READ_DUST` clears the batch (R172, R218). -/
def State.enterReadDust (s : State) : State := { s with st := stReadDust, ph := 0, k := 0, sum := 0 }

/-- The probe advance (R218). -/
def State.advance (s : State) : State :=
  if s.pidx.toNat + 1 < s.cfg.nProbes then
    { s with pidx := BitVec.ofNat 8 (s.pidx.toNat + 1), st := stStartConversion, ph := 0 }
  else
    { s.enterReadDust with pidx := 0 }

/-! ## The reset input -/

/-- Release of `rst` with the strap at `strap` (R280, R284): every register of the block as R47 says. The
collaborators' side is not undone and the trace goes on (R281). Not a step of the machine (R280: no reset
event inside a run); `ADDR` and `SP` as at power-on (notes/assumptions/13.md). -/
def State.resetInput (s : State) (strap : Policy) : State :=
  { State.resetWith s.cfg strap with
    busIn := s.busIn, pinIn := s.pinIn, persIn := s.persIn, dlyIn := s.dlyIn, trace := s.trace }

end Sys2Proof.Machine
end

