-- ==== Sys2Proof/Machine/Control.lean ====
section
/-! DEFINITION. The controller's two remaining states: SLEEP (R223), FAULT (R224). -/

namespace Sys2Proof.Machine

/-- `SLEEP` (R223). -/
def execSleep (s : State) : Out :=
  s.await (callDelay tSleep s) fun _ s => .next (s.goto stStartConversion 0)

/-- `FAULT` (R224): no call, no event, no register change. -/
def execFault (s : State) : Out := .next (s.setSt stFault)

end Sys2Proof.Machine
end

