-- ==== Sys2Proof/Machine/Dust.lean ====
section
/-! DEFINITION. The dust leg: the six micro-operations of one sample (`41_dust_sampler.md` R173 to R178),
DS_CONVERT (R180), DS_PERSIST (R220). -/

namespace Sys2Proof.Machine

/-- `DS_LED_ON` (R173). -/
def execDsLedOn (s : State) : Out :=
  s.await (callDigitalWrite true s) fun r s =>
    match r with
    | .ok => .next (s.setPh 1)
    | .error => .next s.batchFailure

/-- `DS_HOLD_RISE` (R174). -/
def execDsHoldRise (s : State) : Out :=
  s.await (callDelay tRise s) fun _ s => .next (s.setPh 2)

/-- `DS_SAMPLE` (R175): `S <- S + r`. -/
def execDsSample (s : State) : Out :=
  s.await (callAnalogRead .dust s) fun r s =>
    .next ({ s with sum := narrow 14 (s.sum.toNat + r.toNat) }.setPh 3)

/-- `DS_HOLD_PULSE` (R176). -/
def execDsHoldPulse (s : State) : Out :=
  s.await (callDelay tPulse s) fun _ s => .next (s.setPh 4)

/-- `DS_LED_OFF` (R177). -/
def execDsLedOff (s : State) : Out :=
  s.await (callDigitalWrite false s) fun r s =>
    match r with
    | .ok => .next (s.setPh 5)
    | .error => .next s.batchFailure

/-- `DS_HOLD_SETTLE` (R178). -/
def execDsHoldSettle (s : State) : Out :=
  s.await (callDelay tSettle s) fun _ s =>
    let n := s.k.toNat + 1
    let s := { s with k := narrow 5 n }
    .next (if n = nDust then s.setPh 6 else s.setPh 0)

/-- `DS_CONVERT` (R180): internal. -/
def execDsConvert (s : State) : Out :=
  .next ((s.setVal vkDust (dustNum s.sum.toNat)).setPh 7)

/-- `DS_PERSIST` (R220, R263). -/
def execDsPersist (s : State) : Out :=
  s.await (callInsertReading (sidDust s.cfg) s.vkind s.vnum s) fun r s =>
    match r with
    | .ok => .next (s.goto stReadHumidity 0)
    | .error => .next (s.raise .persistenceError (sidDust s.cfg) fun s => s.goto stReadHumidity 0)

end Sys2Proof.Machine
end

