-- ==== Sys2Proof/Machine/Humidity.lean ====
section
/-! DEFINITION. The humidity leg: HM_SAMPLE (R202), HM_PERSIST (R222). -/

namespace Sys2Proof.Machine

/-- `HM_SAMPLE` (R202): no failure path (R205), no clamp (R204). -/
def execHmSample (s : State) : Out :=
  s.await (callAnalogRead .hum s) fun r s => .next ((s.setVal vkHum (humNum r.toNat)).setPh 1)

/-- `HM_PERSIST` (R222, R263). -/
def execHmPersist (s : State) : Out :=
  s.await (callInsertReading (sidHum s.cfg) s.vkind s.vnum s) fun r s =>
    match r with
    | .ok => .next (s.goto stSleep 0)
    | .error => .next (s.raise .persistenceError (sidHum s.cfg) fun s => s.goto stSleep 0)

end Sys2Proof.Machine
end

