-- ==== Sys2Proof/Machine/Requests.lean ====
section
/-! DEFINITION. The interface requests of R117, R120, R122, R123 as instructions: each is the call alone, with
its effect on the environment recorded in the trace; the block's registers do not change
(notes/assumptions/11.md). -/

namespace Sys2Proof.Machine

/-- `RESET_BUS` (R120, R63). -/
def execResetBus (s : State) : Out := s.await (callResetBus s) fun _ s => .next s

/-- `ENUMERATE_NEXT` (R120, R64). -/
def execEnumerateNext (cont : Bool) (s : State) : Out :=
  s.await (callEnumerateNext cont s) fun _ s => .next s

/-- `TRANSACTION` (R120, R65). -/
def execTransaction (cmd : Byte) (addr : Address) (s : State) : Out :=
  s.await (callTransaction cmd addr s) fun _ s => .next s

/-- `READ_BYTE` (R120, R66). -/
def execReadByte (s : State) : Out := s.await (callReadByte s) fun _ s => .next s

/-- `DIGITAL_WRITE` (R122, R68). -/
def execDigitalWrite (level : Bool) (s : State) : Out :=
  s.await (callDigitalWrite level s) fun _ s => .next s

/-- `ANALOG_READ` (R122, R69). -/
def execAnalogRead (ch : Channel) (s : State) : Out := s.await (callAnalogRead ch s) fun _ s => .next s

/-- `INSERT_READING` (R123, R70). -/
def execInsertReading (sid : Sid) (vkind : Vkind) (vnum : Vnum) (s : State) : Out :=
  s.await (callInsertReading sid vkind vnum s) fun _ s => .next s

/-- `DELAY` (R123, R71). -/
def execDelay (us : DelayUs) (s : State) : Out := s.await (callDelay us s) fun _ s => .next s

/-- `DIAG` (R117, R72): an output event with no response. -/
def execDiag (sid : Sid) (kind : BitVec 4) (s : State) : Out := .next (s.emit sid kind)

end Sys2Proof.Machine
end

