-- ==== Sys2Proof/Machine/Startup.lean ====
section
/-! DEFINITION. The startup micro-operations of `43_controller.md`: INIT_RESET (R211), INIT_ENUM (R212),
IDLE (R213). -/

namespace Sys2Proof.Machine

/-- `INIT_RESET` (R211, R251, R253). -/
def execInitReset (s : State) : Out :=
  s.await (callResetBus s) fun r s =>
    match r with
    | .ok => .next (s.setSt stInitEnum)
    | .noDevices => .next (s.raiseFatal .noDevicesFound)
    | .dataError => .next (s.raiseFatal .busDataError)

/-- `INIT_ENUM` (R212, R251, R252): `cont = 0` on the first call and 1 on every later one (R64). -/
def execInitEnum (s : State) : Out :=
  s.await (callEnumerateNext (s.eidx != 0) s) fun r s =>
    match r with
    | .addr a =>
      match s.writeAddr s.eidx a with
      | none => .fault .addrSlotAbsent
      | some s =>
        let n := s.eidx.toNat + 1
        let s := { s with eidx := narrow 8 n }
        .next (if n = s.cfg.nProbes then s.setSt stIdle else s)
    | .noDevice =>
      .next (s.raiseFatal (if s.eidx = 0 then .noDevicesFound else .insufficientDevices))

/-- `IDLE` (R213): internal. -/
def execIdle (s : State) : Out := .next (s.setSt stStartConversion)

end Sys2Proof.Machine
end

