-- ==== Sys2Proof/Machine/Temperature.lean ====
section
/-! DEFINITION. The temperature leg: START_CONVERSION (R214), AWAIT_CONVERSION (R215), RT_CMD (R148),
RT_BYTE (R149), RT_CHECK (R150), RT_PERSIST (R217). -/

namespace Sys2Proof.Machine

/-- `START_CONVERSION` (R214, R140). -/
def execStartConversion (s : State) : Out :=
  match s.readAddr s.pidx with
  | none => .fault .addrSlotAbsent
  | some a => s.await (callTransaction s.cfg.cmdConvert a s) fun _ s => .next (s.setSt stAwaitConversion)

/-- `AWAIT_CONVERSION` (R215). -/
def execAwaitConversion (s : State) : Out :=
  s.await (callDelay tConv s) fun _ s => .next (s.goto stReadTemperature 0)

/-- `RT_CMD` (R148). -/
def execRtCmd (s : State) : Out :=
  match s.readAddr s.pidx with
  | none => .fault .addrSlotAbsent
  | some a =>
    s.await (callTransaction s.cfg.cmdReadScratchpad a s) fun _ s => .next ({ s with bcnt := 0 }.setPh 1)

/-- `RT_BYTE` (R149). -/
def execRtByte (s : State) : Out :=
  s.await (callReadByte s) fun b s =>
    match s.writeSp s.bcnt.toNat b with
    | none => .fault .scratchOffsetAbsent
    | some s =>
      let n := s.bcnt.toNat + 1
      let s := { s with bcnt := BitVec.ofNat 4 n }
      .next (if n = scratchLen then s.setPh 2 else s)

/-- `RT_CHECK` (R150, R142): internal; the value is written only when the CRC matches. -/
def execRtCheck (s : State) : Out :=
  if crcMatch s then .next ((s.setVal vkTemp (decodeRaw s.sp[0] s.sp[1])).setPh 3)
  else .next (s.raise .crcMismatch (sidTemp s.pidx) State.advance)

/-- `RT_PERSIST` (R217, R263). -/
def execRtPersist (s : State) : Out :=
  s.await (callInsertReading (sidTemp s.pidx) s.vkind s.vnum s) fun r s =>
    match r with
    | .ok => .next s.advance
    | .error => .next (s.raise .persistenceError (sidTemp s.pidx) State.advance)

end Sys2Proof.Machine
end

