-- ==== Sys2Proof/Machine/Dispatch.lean ====
section
/-! DEFINITION. One arm for each constructor of Instr. -/

namespace Sys2Proof.Machine

def exec (i : Instr) (s : State) : Host.Outcome State Fault Refusal :=
  match i with
  | .initReset => Sys2Proof.Machine.execInitReset s
  | .initEnum => Sys2Proof.Machine.execInitEnum s
  | .idle => Sys2Proof.Machine.execIdle s
  | .startConversion => Sys2Proof.Machine.execStartConversion s
  | .awaitConversion => Sys2Proof.Machine.execAwaitConversion s
  | .rtCmd => Sys2Proof.Machine.execRtCmd s
  | .rtByte => Sys2Proof.Machine.execRtByte s
  | .rtCheck => Sys2Proof.Machine.execRtCheck s
  | .rtPersist => Sys2Proof.Machine.execRtPersist s
  | .dsLedOn => Sys2Proof.Machine.execDsLedOn s
  | .dsHoldRise => Sys2Proof.Machine.execDsHoldRise s
  | .dsSample => Sys2Proof.Machine.execDsSample s
  | .dsHoldPulse => Sys2Proof.Machine.execDsHoldPulse s
  | .dsLedOff => Sys2Proof.Machine.execDsLedOff s
  | .dsHoldSettle => Sys2Proof.Machine.execDsHoldSettle s
  | .dsConvert => Sys2Proof.Machine.execDsConvert s
  | .dsPersist => Sys2Proof.Machine.execDsPersist s
  | .hmSample => Sys2Proof.Machine.execHmSample s
  | .hmPersist => Sys2Proof.Machine.execHmPersist s
  | .sleep => Sys2Proof.Machine.execSleep s
  | .fault => Sys2Proof.Machine.execFault s
  | .resetBus => Sys2Proof.Machine.execResetBus s
  | .enumerateNext cont => Sys2Proof.Machine.execEnumerateNext cont s
  | .transaction cmd addr => Sys2Proof.Machine.execTransaction cmd addr s
  | .readByte => Sys2Proof.Machine.execReadByte s
  | .digitalWrite level => Sys2Proof.Machine.execDigitalWrite level s
  | .analogRead ch => Sys2Proof.Machine.execAnalogRead ch s
  | .insertReading sid vkind vnum => Sys2Proof.Machine.execInsertReading sid vkind vnum s
  | .delay us => Sys2Proof.Machine.execDelay us s
  | .diag sid kind => Sys2Proof.Machine.execDiag sid kind s

end Sys2Proof.Machine
end

