-- ==== Sys2Proof/Machine/Step.lean ====
section
/-! DEFINITION. One step is one micro-operation, selected by the sequencing word (R10, R32, R102). -/

namespace Sys2Proof.Machine

/-- The micro-operation the sequencing word selects runs; a reserved word goes to `FAULT` (R124). -/
def step (s : State) : Host.Outcome State Fault Refusal :=
  match decode (.seq s.seqWord) with
  | .ok i => exec i s
  | .error _ => .next s.reservedWord

/-- The state with the sequencing word set to `w`: the step reads its next micro-operation from (`st`, `ph`)
and from nothing else (R31; notes/assumptions/12.md). -/
def State.withFetchWord (s : State) (nbits w : Nat) : State :=
  let bits := BitVec.ofNat 8 (w % 2 ^ nbits)
  s.goto (seqSt bits) (seqPh bits)

end Sys2Proof.Machine
end

