-- ==== Sys2Proof/Machine/Signals.lean ====
section
/-! DEFINITION. What leaves the block: the pending call as a function of the state (`00_scope.md` R22), the
request signals of `20_memory.md` R73 and the status mirrors of `10_state.md` R44. -/

namespace Sys2Proof.Machine

/-- The call a micro-operation issues in state `s` (R101), none for an internal one. A transaction whose
`ADDR` entry does not exist has no address to send. -/
def callOfInstr (i : Instr) (s : State) : Option Request :=
  match i with
  | .initReset => some .resetBus
  | .initEnum => some (.enumerateNext (s.eidx != 0))
  | .startConversion => (s.readAddr s.pidx).map (.transaction s.cfg.cmdConvert)
  | .awaitConversion => some (.delay 1000000)
  | .rtCmd => (s.readAddr s.pidx).map (.transaction s.cfg.cmdReadScratchpad)
  | .rtByte => some .readByte
  | .rtPersist => some (.insertReading (sidTemp s.pidx) s.vkind s.vnum)
  | .dsLedOn => some (.digitalWrite true)
  | .dsHoldRise => some (.delay 280)
  | .dsSample => some (.analogRead .dust)
  | .dsHoldPulse => some (.delay 40)
  | .dsLedOff => some (.digitalWrite false)
  | .dsHoldSettle => some (.delay 9680)
  | .dsPersist => some (.insertReading (sidDust s.cfg) s.vkind s.vnum)
  | .hmSample => some (.analogRead .hum)
  | .hmPersist => some (.insertReading (sidHum s.cfg) s.vkind s.vnum)
  | .sleep => some (.delay 60000000)
  | .idle | .rtCheck | .dsConvert | .fault => none
  | .resetBus => some .resetBus
  | .enumerateNext cont => some (.enumerateNext cont)
  | .transaction cmd addr => some (.transaction cmd addr)
  | .readByte => some .readByte
  | .digitalWrite level => some (.digitalWrite level)
  | .analogRead ch => some (.analogRead ch)
  | .insertReading sid vkind vnum => some (.insertReading sid vkind vnum)
  | .delay us => some (.delay us)
  | .diag _ _ => none

/-- `call_of` (R22): the pending call of the state, or none. -/
def callOf (s : State) : Option Request :=
  match decode (.seq s.seqWord) with
  | .ok i => callOfInstr i s
  | .error _ => none

/-- The output signals of R73, less `clk` and the one-cycle `diag_*` pulses, which are events of the trace. -/
structure Outputs where
  busReq : Bool
  busOp : BitVec 3
  busCont : BitVec 1
  busCmd : Byte
  busAddr : Address
  pinReq : Bool
  pinOp : BitVec 1
  pinLevel : BitVec 1
  pinCh : BitVec 1
  persReq : Bool
  persSid : Sid
  persVkind : Vkind
  persVnum : Vnum
  dlyReq : Bool
  dlyUs : DelayUs
  st : BitVec 4
  ph : BitVec 4
  fault : Bool
  faultCode : BitVec 4
  faultSid : Sid
  pidx : BitVec 8
  deriving DecidableEq, Repr

/-- No request, and the status mirrors (R44). -/
def statusOutputs (s : State) : Outputs :=
  { busReq := false, busOp := 0, busCont := 0, busCmd := 0, busAddr := 0,
    pinReq := false, pinOp := 0, pinLevel := 0, pinCh := 0,
    persReq := false, persSid := 0, persVkind := 0, persVnum := 0,
    dlyReq := false, dlyUs := 0,
    st := s.st, ph := s.ph, fault := s.fault, faultCode := s.faultCode, faultSid := s.faultSid,
    pidx := s.pidx }

/-- The request signals of one encoded request, over the status mirrors (R73, R120, R122, R123). -/
def driveRequest (o : Outputs) : CodeWord → Outputs
  | .busReq op cont cmd addr =>
    { o with busReq := true, busOp := op, busCont := cont, busCmd := cmd, busAddr := addr }
  | .pinReq op level ch => { o with pinReq := true, pinOp := op, pinLevel := level, pinCh := ch }
  | .persReq sid value =>
    { o with persReq := true, persSid := sid, persVkind := valueKind value, persVnum := valueNum value }
  | .dlyReq us => { o with dlyReq := true, dlyUs := us }
  | .seq _ => o
  | .diagEvent _ _ => o

/-- The outputs of the block while its pending call waits (R62, R73): at most one request is up. Signals no
request drives are 0 (DESIGN CHOICE, notes/assumptions/22.md). -/
def outputs (s : State) : Outputs :=
  match callOf s with
  | some req => driveRequest (statusOutputs s) (encode req.instr)
  | none => statusOutputs s

end Sys2Proof.Machine
end

