-- ==== Sys2Proof/Machine/Text.lean ====
section
/-! DEFINITION. The textual forms of `30_encoding.md` R126: mnemonics, trace lines in the event syntax of
`00_scope.md` R18, and the pseudo-operations. The spacing, the digits of numbers and the bytes of an address
follow the traces of `95_test_vectors.md` (DEDUCED, notes/assumptions/21.md). -/

namespace Sys2Proof.Machine

/-! ## Pseudo-operations -/

/-- The document's component contracts (R126). -/
inductive PseudoOp where
  | startConversion
  | readTemperature
  | readOneSample
  | dustBatch
  | readHumidity
  deriving DecidableEq, Repr

/-- The micro-operations of one dust sample (R126). -/
def sampleOps : List Instr :=
  [.dsLedOn, .dsHoldRise, .dsSample, .dsHoldPulse, .dsLedOff, .dsHoldSettle]

/-- What a pseudo-operation expands into, when nothing fails (R126). -/
def PseudoOp.expand : PseudoOp → List Instr
  | .startConversion => [.startConversion]
  | .readTemperature => [.rtCmd] ++ List.replicate scratchLen .rtByte ++ [.rtCheck]
  | .readOneSample => sampleOps
  | .dustBatch => (List.replicate nDust sampleOps).flatten ++ [.dsConvert]
  | .readHumidity => [.hmSample]

/-! ## Names -/

/-- The name of an error kind code (R116). -/
def kindName (kind : BitVec 4) : String :=
  match kind.toNat with
  | 0 => "NONE"
  | 1 => "NoDevicesFound"
  | 2 => "InsufficientDevices"
  | 3 => "BusDataError"
  | 4 => "PinInitError"
  | 5 => "PinWriteError"
  | 6 => "CrcMismatch"
  | 7 => "BatchCollectionError"
  | 8 => "PersistenceError"
  | n => "reserved kind " ++ toString n

/-- The name of a value kind (R115). -/
def vkindName (vkind : Vkind) : String :=
  match vkind.toNat with
  | 1 => "TEMP"
  | 2 => "DUST"
  | 3 => "HUM"
  | _ => "NONE"

/-- The name of a state (R100). -/
def stateName (st : BitVec 4) : String :=
  match st.toNat with
  | 0 => "INIT_RESET"
  | 1 => "INIT_ENUM"
  | 2 => "IDLE"
  | 3 => "START_CONVERSION"
  | 4 => "AWAIT_CONVERSION"
  | 5 => "READ_TEMPERATURE"
  | 6 => "READ_DUST"
  | 7 => "READ_HUMIDITY"
  | 8 => "SLEEP"
  | 9 => "FAULT"
  | n => "reserved state " ++ toString n

/-! ## Numbers -/

/-- The sixteen hexadecimal digits. -/
def hexDigits : List String :=
  ["0", "1", "2", "3", "4", "5", "6", "7", "8", "9", "A", "B", "C", "D", "E", "F"]

/-- A byte as two hexadecimal digits (R14). -/
def hexByte (b : Byte) : String :=
  hexDigits.getD (b.toNat / 16) "" ++ hexDigits.getD (b.toNat % 16) ""

/-- The bytes of an address, byte 0 first (R14, R75). -/
def addrText (a : Address) : String := " ".intercalate ((addrBytes a).map hexByte)

/-- A bit of a call, 0 or 1. -/
def bitText (b : Bool) : String := if b then "1" else "0"

/-- A value as its kind and numerator (R115). -/
def valueText (vkind : Vkind) (vnum : Vnum) : String :=
  "(" ++ vkindName vkind ++ ", " ++ toString vnum.toInt ++ ")"

/-! ## Events and trace lines -/

/-- A call with its arguments, `port.op(args)` (R18). -/
def Request.text : Request → String
  | .resetBus => "bus.reset_bus()"
  | .enumerateNext cont => "bus.enumerate_next(" ++ bitText cont ++ ")"
  | .transaction cmd addr => "bus.transaction(0x" ++ hexByte cmd ++ ", " ++ addrText addr ++ ")"
  | .readByte => "bus.read_byte()"
  | .digitalWrite level => "pin.digital_write(PIN_LED, " ++ bitText level ++ ")"
  | .analogRead .dust => "pin.analog_read(AIN_DUST)"
  | .analogRead .hum => "pin.analog_read(AIN_HUM)"
  | .insertReading sid vkind vnum =>
    "pers.insert_reading(" ++ toString sid.toNat ++ ", " ++ valueText vkind vnum ++ ")"
  | .delay us => "delay(" ++ toString us.toNat ++ ")"

/-- A returned value (R18, R63 to R71). -/
def Result.text : Result → String
  | .reset .ok => "Ok"
  | .reset .noDevices => "NoDevices"
  | .reset .dataError => "DataError"
  | .enum (.addr a) => "Addr(" ++ addrText a ++ ")"
  | .enum .noDevice => "NoDevice"
  | .done => "()"
  | .byte b => "0x" ++ hexByte b
  | .status .ok => "Ok"
  | .status .error => "Error"
  | .count r => toString r.toNat

/-- An event (R18): `port.op(args) => result`, or `diag(sid, KIND)`. -/
def Event.text : Event → String
  | .call req result => Request.text req ++ " => " ++ result.text
  | .diag sid kind => "diag(" ++ toString sid.toNat ++ ", " ++ kindName kind ++ ")"

/-- The mnemonic a sequencing word selects (R101); the state's name for a reserved word, which has no mnemonic
(DESIGN CHOICE, notes/assumptions/21.md). -/
def wordText (s : State) : String :=
  match decode (.seq s.seqWord) with
  | .ok i => i.row.mnemonic
  | .error _ => stateName s.st

/-- The trace line of one step from `s` to `t`: `MNEMONIC: port.op(args) => result` or `MNEMONIC: (internal)`,
the diagnostic events after semicolons, and `-> NEXT` (R126). R126 has no line for a step whose call is not yet
answered; such a step adds no event and prints as `(internal)`, its own mnemonic after the arrow (DESIGN CHOICE,
notes/assumptions/21.md). -/
def traceLine (s t : State) : String :=
  let events := t.trace.drop s.trace.length
  let calls := events.filter fun e => match e with | .call _ _ => true | .diag _ _ => false
  let diags := events.filter fun e => match e with | .call _ _ => false | .diag _ _ => true
  let body := if calls.isEmpty then "(internal)" else "; ".intercalate (calls.map Event.text)
  wordText s ++ ": " ++ body ++ String.join (diags.map fun e => "; " ++ e.text) ++ " -> " ++ wordText t

end Sys2Proof.Machine
end

