-- ==== Sys2Proof/Safety.lean ====
section
/-! DEFINITION. What counts as a safe run: runs, what the environment may do, reachable states, the invariant of
the machine (`10_state.md` R48 and what keeps it), and the readings of a trace that claims use. -/

namespace Sys2Proof.Machine

/-! ## Runs -/

/-- `n` steps, stopping at the first outcome that is no next state. -/
def runSteps : Nat → State → Out
  | 0, s => .next s
  | n + 1, s =>
    match step s with
    | .next s' => runSteps n s'
    | .fault r => .fault r
    | .refused r => .refused r

/-- The micro-operations `n` steps run, in order. -/
def microOps : Nat → State → List Instr
  | 0, _ => []
  | n + 1, s =>
    match decode (.seq s.seqWord) with
    | .error _ => []
    | .ok i =>
      match step s with
      | .next s' => i :: microOps n s'
      | .fault _ => [i]
      | .refused _ => [i]

/-- The environment decides what it will answer next: any answers on every port (R11, U7, V9). -/
def State.withAnswers (s : State) (bus : List BusAnswer) (pin : List PinAnswer) (pers : List PersAnswer)
    (dly : Nat) : State :=
  { s with busIn := bus, pinIn := pin, persIn := pers, dlyIn := dly }

/-- The states of a run: a reset of a legal configuration, then steps, the environment free between them. -/
inductive Reachable : State → Prop where
  | reset (cfg : Config) (strap : Policy) : cfg.wf = true → Reachable (State.resetWith cfg strap)
  | answers (s : State) (bus : List BusAnswer) (pin : List PinAnswer) (pers : List PersAnswer) (dly : Nat) :
      Reachable s → Reachable (s.withAnswers bus pin pers dly)
  | step (s t : State) : Reachable s → Machine.step s = .next t → Reachable t

/-- The port of a call has an answer waiting (R62). -/
def answered (req : Request) (s : State) : Bool :=
  match req with
  | .resetBus | .enumerateNext _ | .transaction _ _ | .readByte => !s.busIn.isEmpty
  | .digitalWrite _ | .analogRead _ => !s.pinIn.isEmpty
  | .insertReading _ _ _ => !s.persIn.isEmpty
  | .delay _ => s.dlyIn != 0

/-! ## The invariant -/

/-- What `10_state.md` R48 says of every reachable state. -/
structure State.RuleR48 (s : State) : Prop where
  wordDefined : ∃ i, decode (.seq s.seqWord) = .ok i
  pidxRange : s.pidx.toNat < s.cfg.nProbes
  eidxRange : s.eidx.toNat ≤ s.cfg.nProbes
  eidxFull : s.st ≠ 0 → s.st ≠ 1 → s.st ≠ 9 → s.eidx.toNat = s.cfg.nProbes
  bcntRange : s.bcnt.toNat ≤ 9
  kRange : s.k.toNat ≤ 16
  sumBySamples : s.sum.toNat ≤ 1023 * s.k.toNat + 1023
  sumRange : s.sum.toNat ≤ 16368
  faultFlag : s.fault = true ↔ s.st = 9
  faultCodeSet : s.faultCode ≠ 0 ↔ s.st = 9

/-- The invariant a step keeps: R48, the length of the address table (R36), and what holds phase by phase:
the index registers before their storage is used (R35, R38, R39), the batch sum before a sample is added (R40),
the probe index outside the temperature leg (R34), a value of the right kind and range before it is sent
(R41, R115), and `fault_sid` (R42). -/
structure State.Inv (s : State) : Prop extends s.RuleR48 where
  addrLength : s.addr.length = s.cfg.nProbes
  eidxBeforeEnum : s.st = 0 → s.eidx = 0
  eidxDuringEnum : s.st = 1 → s.eidx.toNat < s.cfg.nProbes
  bcntBeforeByte : s.seqWord = 0x51 → s.bcnt.toNat < 9
  bcntAtCheck : s.seqWord = 0x52 → s.bcnt.toNat = 9
  kDuringBatch : s.st = 6 → s.ph.toNat ≤ 5 → s.k.toNat < 16
  kAtConvert : s.seqWord = 0x66 → s.k.toNat = 16
  sumBeforeSample : s.st = 6 → s.ph.toNat ≤ 2 → s.sum.toNat ≤ 1023 * s.k.toNat
  pidxAtRest : s.st = 0 ∨ s.st = 1 ∨ s.st = 2 ∨ s.st = 6 ∨ s.st = 7 ∨ s.st = 8 → s.pidx = 0
  tempReady : s.seqWord = 0x53 → s.vkind = 1 ∧ valueOccurs s.vkind s.vnum = true
  dustReady : s.seqWord = 0x67 → s.vkind = 2 ∧ valueOccurs s.vkind s.vnum = true
  humReady : s.seqWord = 0x71 → s.vkind = 3 ∧ valueOccurs s.vkind s.vnum = true
  faultSidClear : s.st ≠ 9 → s.faultSid = 0
  faultSidRange : s.faultSid.toNat ≤ s.cfg.nProbes + 2

/-! ## Readings of a trace -/

/-- What a run from `s` to `t` added to the trace. -/
def newEvents (s t : State) : List Event := t.trace.drop s.trace.length

/-- The ids of the insert calls of a trace, in order, whatever persistence answered (R86). -/
def insertedIds : List Event → List Nat
  | [] => []
  | .call (.insertReading sid _ _) _ :: es => sid.toNat :: insertedIds es
  | .call _ _ :: es => insertedIds es
  | .diag _ _ :: es => insertedIds es

/-- The records persistence answered `Ok` to, in order (R296: it keeps every one). -/
def storedRecords : List Event → List (Sid × Vkind × Vnum)
  | [] => []
  | .call (.insertReading sid vkind vnum) (.status .ok) :: es => (sid, vkind, vnum) :: storedRecords es
  | .call _ _ :: es => storedRecords es
  | .diag _ _ :: es => storedRecords es

/-- The level of the emitter pin after a trace that starts at level `level`: the last write answered `Ok`
decides (R296); after a failed write it is not known (R173, R177). -/
def emitterLevel (level : Option Bool) : List Event → Option Bool
  | [] => level
  | .call (.digitalWrite l) (.status .ok) :: es => emitterLevel (some l) es
  | .call (.digitalWrite _) _ :: es => emitterLevel none es
  | .call _ _ :: es => emitterLevel level es
  | .diag _ _ :: es => emitterLevel level es

/-- The event is the idle delay that ends a cycle (R223). -/
def Event.endsCycle : Event → Bool
  | .call (.delay us) _ => us = 60000000
  | .call _ _ => false
  | .diag _ _ => false

/-- The trace accounts for sensor `sid`: a record stored, or a diagnostic event that names it (R275). -/
def accountsFor (sid : Sid) (es : List Event) : Prop :=
  (∃ vkind vnum, (sid, vkind, vnum) ∈ storedRecords es) ∨ ∃ kind, .diag sid kind ∈ es

/-- An event the spec allows: a call that is a well-formed request, or a well-formed diagnostic event. -/
def Event.wf : Event → Bool
  | .call req _ => req.instr.wf
  | .diag sid kind => (Instr.diag sid kind).wf

end Sys2Proof.Machine
end

