-- ==== Sys2Proof/Certificates/Slice0/Obligations.lean ====
section
/-! DEFINITION. The statements for the provers. Each docstring names the rule of spec/ it formalises. States are
written field by field, with the codes of `30_encoding.md` R100, R101 and R116 as numbers, so that a
statement does not lean on the definitions it is about. -/

open Sys2Proof Sys2Proof.Machine

/-! ## Reset -/

/-- R47: the registers after reset. `ADDR` and `SP`, which R47 leaves unspecified, are not claimed. -/
def Obligations.ResetLeavesTheSpecifiedRegisters : Prop :=
  ∀ (cfg : Config) (strap : Policy),
    let s := State.resetWith cfg strap
    s.st = 0 ∧ s.ph = 0 ∧ s.pol = strap ∧ s.eidx = 0 ∧ s.pidx = 0 ∧ s.bcnt = 0 ∧ s.k = 0 ∧ s.sum = 0 ∧
    s.fault = false ∧ s.faultCode = 0 ∧ s.faultSid = 0 ∧ s.vkind = 0 ∧ s.vnum = 0 ∧
    s.addr.length = cfg.nProbes ∧ s.trace = []

/-- R280, R281, R264, R284: the reset input, from any state, `FAULT` among them. That it keeps the answers to
come and the trace is the model's reading of R281 (notes/assumptions/13.md). -/
def Obligations.ResetInputRestartsTheBlock : Prop :=
  ∀ (s : State) (strap : Policy),
    let t := s.resetInput strap
    decode (.seq t.seqWord) = .ok .initReset ∧ t.pol = strap ∧ t.eidx = 0 ∧ t.pidx = 0 ∧ t.bcnt = 0 ∧
    t.k = 0 ∧ t.sum = 0 ∧ t.vkind = 0 ∧ t.vnum = 0 ∧ t.fault = false ∧ t.faultCode = 0 ∧ t.faultSid = 0 ∧
    t.cfg = s.cfg ∧ t.busIn = s.busIn ∧ t.pinIn = s.pinIn ∧ t.persIn = s.persIn ∧ t.dlyIn = s.dlyIn ∧
    t.trace = s.trace

/-! ## Decoding and the step -/

/-- R101, R102: the 21 words of the table, and no other. -/
def Obligations.SequencingWordsDecodeByTheTable : Prop :=
  decode (.seq 0x00) = .ok .initReset ∧ decode (.seq 0x10) = .ok .initEnum ∧
  decode (.seq 0x20) = .ok .idle ∧ decode (.seq 0x30) = .ok .startConversion ∧
  decode (.seq 0x40) = .ok .awaitConversion ∧ decode (.seq 0x50) = .ok .rtCmd ∧
  decode (.seq 0x51) = .ok .rtByte ∧ decode (.seq 0x52) = .ok .rtCheck ∧
  decode (.seq 0x53) = .ok .rtPersist ∧ decode (.seq 0x60) = .ok .dsLedOn ∧
  decode (.seq 0x61) = .ok .dsHoldRise ∧ decode (.seq 0x62) = .ok .dsSample ∧
  decode (.seq 0x63) = .ok .dsHoldPulse ∧ decode (.seq 0x64) = .ok .dsLedOff ∧
  decode (.seq 0x65) = .ok .dsHoldSettle ∧ decode (.seq 0x66) = .ok .dsConvert ∧
  decode (.seq 0x67) = .ok .dsPersist ∧ decode (.seq 0x70) = .ok .hmSample ∧
  decode (.seq 0x71) = .ok .hmPersist ∧ decode (.seq 0x80) = .ok .sleep ∧
  decode (.seq 0x90) = .ok .fault

/-- R101, R115, R120, R122, R123: decoding and encoding agree both ways; words of one instruction differ only in
operand signals its operation does not name. That the encoder writes 0 on those is the model's choice
(notes/assumptions/17.md). -/
def Obligations.DecodeAndEncodeAgree : Prop :=
  (∀ i : Instr, i.wf = true → decode (encode i) = .ok i) ∧
  (∀ (c : CodeWord) (i : Instr), decode c = .ok i → encode i = canonicalWord c)

/-- R10, R102: the step is the meaning of the decoded micro-operation; nothing is added around it. -/
def Obligations.StepRunsTheDecodedMicroOperation : Prop :=
  ∀ (s : State) (i : Instr), decode (.seq (s.st ++ s.ph)) = .ok i → step s = exec i s

/-- R124: which words are reserved, and what an implementation does with one. That the flag `fault` is set is
the model's inference (notes/assumptions/7.md) and is not claimed. -/
def Obligations.ReservedWordsGoToFault : Prop :=
  (∀ st ph : BitVec 4,
    (∃ e, decode (.seq (st ++ ph)) = .error e) ↔
      (10 ≤ st.toNat ∨ (ph ≠ 0 ∧ st ≠ 5 ∧ st ≠ 6 ∧ st ≠ 7) ∨ (st = 5 ∧ 4 ≤ ph.toNat) ∨
        (st = 6 ∧ 8 ≤ ph.toNat) ∨ (st = 7 ∧ 2 ≤ ph.toNat))) ∧
  (∀ (s : State) (e : DecodeError), decode (.seq (s.st ++ s.ph)) = .error e →
    ∃ t, step s = .next t ∧ t.st = 9 ∧ t.ph = 0 ∧ t.faultCode = s.faultCode ∧ t.trace = s.trace)

/-! ## Startup -/

/-- R211, for the three results of `reset_bus`. -/
def Obligations.InitResetEntersEnumerationOrFault : Prop :=
  decode (.seq 0x00) = .ok .initReset ∧
  ∀ (s : State) (a : BusAnswer) (rest : List BusAnswer), s.busIn = a :: rest →
    (a.status = 0 → exec .initReset s = .next { s with
      busIn := rest, trace := s.trace ++ [.call .resetBus (.reset .ok)], st := 1 }) ∧
    (a.status = 1 → exec .initReset s = .next { s with
      busIn := rest, trace := s.trace ++ [.call .resetBus (.reset .noDevices), .diag 0 1],
      fault := true, faultCode := 1, faultSid := 0, st := 9, ph := 0 }) ∧
    (a.status = 2 → exec .initReset s = .next { s with
      busIn := rest, trace := s.trace ++ [.call .resetBus (.reset .dataError), .diag 0 3],
      fault := true, faultCode := 3, faultSid := 0, st := 9, ph := 0 })

/-- R212, for the two results of `enumerate_next`, in a state with the operand range of R212. -/
def Obligations.InitEnumStoresAnAddressOrFaults : Prop :=
  decode (.seq 0x10) = .ok .initEnum ∧
  ∀ (s : State) (a : BusAnswer) (rest : List BusAnswer), s.busIn = a :: rest →
    s.addr.length = s.cfg.nProbes → s.eidx.toNat < s.cfg.nProbes →
    (a.status = 0 → exec .initEnum s = .next { s with
      busIn := rest,
      trace := s.trace ++ [.call (.enumerateNext (s.eidx != 0)) (.enum (.addr a.raddr))],
      addr := s.addr.set s.eidx.toNat a.raddr, eidx := s.eidx + 1,
      st := if s.eidx.toNat + 1 = s.cfg.nProbes then 2 else s.st }) ∧
    (a.status = 1 → s.eidx = 0 → exec .initEnum s = .next { s with
      busIn := rest, trace := s.trace ++ [.call (.enumerateNext false) (.enum .noDevice), .diag 0 1],
      fault := true, faultCode := 1, faultSid := 0, st := 9, ph := 0 }) ∧
    (a.status = 1 → s.eidx ≠ 0 → exec .initEnum s = .next { s with
      busIn := rest, trace := s.trace ++ [.call (.enumerateNext true) (.enum .noDevice), .diag 0 2],
      fault := true, faultCode := 2, faultSid := 0, st := 9, ph := 0 })

/-- R213: `IDLE` goes on without a call, and is passed once: it is entered from `INIT_ENUM` alone, which is
entered from `INIT_RESET` and itself, and `INIT_RESET` from itself alone. -/
def Obligations.IdleIsPassedOncePerReset : Prop :=
  decode (.seq 0x20) = .ok .idle ∧
  (∀ s : State, exec .idle s = .next { s with st := 3 }) ∧
  (∀ s t : State, step s = .next t →
    (t.seqWord = 0x20 → s.seqWord = 0x10) ∧
    (t.seqWord = 0x10 → s.seqWord = 0x00 ∨ s.seqWord = 0x10) ∧
    (t.seqWord = 0x00 → s.seqWord = 0x00))

/-- R121: a status outside the signature of a startup call is read as R121 says an implementation reads it, on the
first call of `enumerate_next` and on a later one (the model's choice between refusing and this:
notes/assumptions/8.md). -/
def Obligations.StatusesOutsideTheSignature : Prop :=
  (∀ (s : State) (a : BusAnswer) (rest : List BusAnswer), s.busIn = a :: rest → a.status = 3 →
    exec .initReset s = .next { s with
      busIn := rest, trace := s.trace ++ [.call .resetBus (.reset .dataError), .diag 0 3],
      fault := true, faultCode := 3, faultSid := 0, st := 9, ph := 0 }) ∧
  (∀ (s : State) (a : BusAnswer) (rest : List BusAnswer), s.busIn = a :: rest →
    a.status = 2 ∨ a.status = 3 → s.eidx = 0 →
    exec .initEnum s = .next { s with
      busIn := rest, trace := s.trace ++ [.call (.enumerateNext false) (.enum .noDevice), .diag 0 1],
      fault := true, faultCode := 1, faultSid := 0, st := 9, ph := 0 }) ∧
  (∀ (s : State) (a : BusAnswer) (rest : List BusAnswer), s.busIn = a :: rest →
    a.status = 2 ∨ a.status = 3 → s.eidx ≠ 0 →
    exec .initEnum s = .next { s with
      busIn := rest, trace := s.trace ++ [.call (.enumerateNext true) (.enum .noDevice), .diag 0 2],
      fault := true, faultCode := 2, faultSid := 0, st := 9, ph := 0 })

/-! ## Temperature -/

/-- R214: the conversion command to the current probe, whatever the status of the answer. For the statuses 1 to 3,
which the call's signature does not have, that is the model's choice (notes/assumptions/8.md). -/
def Obligations.StartConversionAddressesTheCurrentProbe : Prop :=
  decode (.seq 0x30) = .ok .startConversion ∧
  ∀ (s : State) (adr : Address) (a : BusAnswer) (rest : List BusAnswer),
    s.addr[s.pidx.toNat]? = some adr → s.busIn = a :: rest →
    exec .startConversion s = .next { s with
      busIn := rest, trace := s.trace ++ [.call (.transaction s.cfg.cmdConvert adr) .done], st := 4 }

/-- R148: the read-scratchpad command to the current probe; entered only from `AWAIT_CONVERSION`. That an answer
with a status of 1 to 3 reads as success is the model's choice (notes/assumptions/8.md). -/
def Obligations.RtCmdAddressesTheCurrentProbe : Prop :=
  decode (.seq 0x50) = .ok .rtCmd ∧
  (∀ (s : State) (adr : Address) (a : BusAnswer) (rest : List BusAnswer),
    s.addr[s.pidx.toNat]? = some adr → s.busIn = a :: rest →
    exec .rtCmd s = .next { s with
      busIn := rest, trace := s.trace ++ [.call (.transaction s.cfg.cmdReadScratchpad adr) .done],
      bcnt := 0, ph := 1 }) ∧
  (∀ s t : State, step s = .next t → t.seqWord = 0x50 →
    s.seqWord = 0x40 ∨ (s.seqWord = 0x50 ∧ t = s))

/-- R215, R223: the two fixed waits of the controller. -/
def Obligations.ConversionWaitAndSleepAreFixedDelays : Prop :=
  decode (.seq 0x40) = .ok .awaitConversion ∧ decode (.seq 0x80) = .ok .sleep ∧
  ∀ (s : State) (n : Nat), s.dlyIn = n + 1 →
    exec .awaitConversion s = .next { s with
      dlyIn := n, trace := s.trace ++ [.call (.delay 1000000) .done], st := 5, ph := 0 } ∧
    exec .sleep s = .next { s with
      dlyIn := n, trace := s.trace ++ [.call (.delay 60000000) .done], st := 3, ph := 0 }

/-- R149: one byte of the frame, and nine of them from the start of a frame. That an answer with a status of 1 to 3
reads as success is the model's choice (notes/assumptions/8.md). -/
def Obligations.RtByteReadsANineByteFrame : Prop :=
  decode (.seq 0x51) = .ok .rtByte ∧
  (∀ (s : State) (a : BusAnswer) (rest : List BusAnswer) (h : s.bcnt.toNat < 9),
    s.busIn = a :: rest →
    exec .rtByte s = .next { s with
      busIn := rest, trace := s.trace ++ [.call .readByte (.byte a.rdata)],
      sp := s.sp.set s.bcnt.toNat a.rdata, bcnt := s.bcnt + 1,
      ph := if s.bcnt = 8 then 2 else s.ph }) ∧
  (∀ (s : State) (frame rest : List BusAnswer),
    s.seqWord = 0x51 → s.bcnt = 0 → frame.length = 9 → s.busIn = frame ++ rest →
    ∃ t, runSteps 9 s = .next t ∧ t.sp.toList = frame.map (·.rdata) ∧ t.seqWord = 0x52 ∧ t.bcnt = 9 ∧
      t.busIn = rest ∧ t.trace = s.trace ++ frame.map fun a => .call .readByte (.byte a.rdata))

/-- R150, R142: the decoded value is written when the CRC matches; on a mismatch the value is untouched and the
failure follows the policy. The probe index is in its range (R34, in the invariant). -/
def Obligations.RtCheckDecodesOrRaises : Prop :=
  decode (.seq 0x52) = .ok .rtCheck ∧
  ∀ s : State,
    let payload := #v[s.sp[0], s.sp[1], s.sp[2], s.sp[3], s.sp[4], s.sp[5], s.sp[6], s.sp[7]]
    (crc8 s.cfg payload = s.sp[8] → exec .rtCheck s = .next { s with
      vkind := 1, vnum := (s.sp[1] ++ s.sp[0] : BitVec 16).signExtend 39, ph := 3 }) ∧
    (crc8 s.cfg payload ≠ s.sp[8] → s.pidx.toNat < s.cfg.nProbes → s.pol = .halt → exec .rtCheck s = .next { s with
      trace := s.trace ++ [.diag (s.pidx + 1) 6],
      fault := true, faultCode := 6, faultSid := s.pidx + 1, st := 9, ph := 0 }) ∧
    (crc8 s.cfg payload ≠ s.sp[8] → s.pidx.toNat < s.cfg.nProbes → s.pol = .recover → exec .rtCheck s = .next
      (State.advance { s with trace := s.trace ++ [.diag (s.pidx + 1) 6] }))

/-- R218: the probe advance. -/
def Obligations.ProbeAdvanceTakesTheNextProbeOrTheDustLeg : Prop :=
  ∀ s : State,
    (s.pidx.toNat + 1 < s.cfg.nProbes → s.advance = { s with pidx := s.pidx + 1, st := 3, ph := 0 }) ∧
    (s.pidx.toNat + 1 = s.cfg.nProbes →
      s.advance = { s with pidx := 0, st := 6, ph := 0, k := 0, sum := 0 })

/-- R217: the temperature reading goes to persistence once, whatever the answer. The probe index is in its range
(R34, in the invariant). -/
def Obligations.RtPersistSendsTheReadingOnce : Prop :=
  decode (.seq 0x53) = .ok .rtPersist ∧
  ∀ (s : State) (a : PersAnswer) (rest : List PersAnswer),
    s.persIn = a :: rest → s.pidx.toNat < s.cfg.nProbes →
    (a.err = false → exec .rtPersist s = .next (State.advance { s with
      persIn := rest,
      trace := s.trace ++ [.call (.insertReading (s.pidx + 1) s.vkind s.vnum) (.status .ok)] })) ∧
    (a.err = true → s.pol = .halt → exec .rtPersist s = .next { s with
      persIn := rest,
      trace := s.trace ++
        [.call (.insertReading (s.pidx + 1) s.vkind s.vnum) (.status .error), .diag (s.pidx + 1) 8],
      fault := true, faultCode := 8, faultSid := s.pidx + 1, st := 9, ph := 0 }) ∧
    (a.err = true → s.pol = .recover → exec .rtPersist s = .next (State.advance { s with
      persIn := rest,
      trace := s.trace ++
        [.call (.insertReading (s.pidx + 1) s.vkind s.vnum) (.status .error),
          .diag (s.pidx + 1) 8] }))

/-! ## Dust -/

/-- R173, R177: the two emitter writes; a failed write fails the batch (R179). -/
def Obligations.EmitterWritesGoOnOrFailTheBatch : Prop :=
  decode (.seq 0x60) = .ok .dsLedOn ∧ decode (.seq 0x64) = .ok .dsLedOff ∧
  ∀ (s : State) (a : PinAnswer) (rest : List PinAnswer), s.pinIn = a :: rest →
    let sid : Sid := BitVec.ofNat 8 (s.cfg.nProbes + 1)
    (a.err = false → exec .dsLedOn s = .next { s with
      pinIn := rest, trace := s.trace ++ [.call (.digitalWrite true) (.status .ok)], ph := 1 }) ∧
    (a.err = false → exec .dsLedOff s = .next { s with
      pinIn := rest, trace := s.trace ++ [.call (.digitalWrite false) (.status .ok)], ph := 5 }) ∧
    (∀ level : Bool, a.err = true → s.pol = .halt →
      exec (if level then .dsLedOn else .dsLedOff) s = .next { s with
        pinIn := rest,
        trace := s.trace ++
          [.call (.digitalWrite level) (.status .error), .diag sid 5, .diag sid 7],
        fault := true, faultCode := 7, faultSid := sid, st := 9, ph := 0 }) ∧
    (∀ level : Bool, a.err = true → s.pol = .recover →
      exec (if level then .dsLedOn else .dsLedOff) s = .next { s with
        pinIn := rest,
        trace := s.trace ++
          [.call (.digitalWrite level) (.status .error), .diag sid 5, .diag sid 7],
        st := 7, ph := 0 })

/-- R174, R176: the rise hold and the pulse hold. -/
def Obligations.RiseAndPulseHolds : Prop :=
  decode (.seq 0x61) = .ok .dsHoldRise ∧ decode (.seq 0x63) = .ok .dsHoldPulse ∧
  ∀ (s : State) (n : Nat), s.dlyIn = n + 1 →
    exec .dsHoldRise s = .next { s with
      dlyIn := n, trace := s.trace ++ [.call (.delay 280) .done], ph := 2 } ∧
    exec .dsHoldPulse s = .next { s with
      dlyIn := n, trace := s.trace ++ [.call (.delay 40) .done], ph := 4 }

/-- R175: the count is added to the batch sum, exactly, where the sum fits its 14 bits. -/
def Obligations.DsSampleAddsTheCount : Prop :=
  decode (.seq 0x62) = .ok .dsSample ∧
  ∀ (s : State) (a : PinAnswer) (rest : List PinAnswer), s.pinIn = a :: rest →
    s.sum.toNat + a.adc.toNat < 2 ^ 14 →
    ∃ total : BitVec 14, total.toNat = s.sum.toNat + a.adc.toNat ∧
      exec .dsSample s = .next { s with
        pinIn := rest, trace := s.trace ++ [.call (.analogRead .dust) (.count a.adc)],
        sum := total, ph := 3 }

/-- R178: the settle hold counts the sample and starts the next one or the conversion. -/
def Obligations.DsHoldSettleCountsTheSample : Prop :=
  decode (.seq 0x65) = .ok .dsHoldSettle ∧
  ∀ (s : State) (n : Nat), s.dlyIn = n + 1 → s.k.toNat < 16 →
    exec .dsHoldSettle s = .next { s with
      dlyIn := n, trace := s.trace ++ [.call (.delay 9680) .done],
      k := s.k + 1, ph := if s.k = 15 then 6 else 0 }

/-- R172: sixteen samples with no failure are 96 calls, 32 writes, 16 reads and 48 delays, and leave the sum of
the counts. -/
def Obligations.BatchOfSixteenSamplesTakes96Calls : Prop :=
  ∀ (s : State) (counts : List Count) (rest : List PinAnswer) (n : Nat),
    s.seqWord = 0x60 → s.k = 0 → s.sum = 0 → counts.length = 16 →
    s.pinIn = (counts.flatMap fun r => [⟨false, 0⟩, ⟨false, r⟩, ⟨false, 0⟩]) ++ rest → s.dlyIn = 48 + n →
    ∃ t, runSteps 96 s = .next t ∧ t.seqWord = 0x66 ∧ t.k = 16 ∧
      t.sum.toNat = (counts.map BitVec.toNat).sum ∧ t.pinIn = rest ∧ t.dlyIn = n ∧
      newEvents s t = counts.flatMap fun r =>
        [.call (.digitalWrite true) (.status .ok), .call (.delay 280) .done,
          .call (.analogRead .dust) (.count r), .call (.delay 40) .done,
          .call (.digitalWrite false) (.status .ok), .call (.delay 9680) .done]

/-- R86 (d), R173, R177: from the start of a cycle, the emitter off, and as long as no write fails, the emitter is
on exactly between the two writes of a sample. The level is what the writes of the trace say
(notes/assumptions/20.md). -/
def Obligations.EmitterIsOnOnlyInsideASample : Prop :=
  ∀ (n : Nat) (s t : State), s.seqWord = 0x30 → runSteps n s = .next t →
    (∀ level, .call (.digitalWrite level) (.status .error) ∉ newEvents s t) →
    (emitterLevel (some false) (newEvents s t) = some true ↔ t.st = 6 ∧ 1 ≤ t.ph.toNat ∧ t.ph.toNat ≤ 4)

/-- R126: where no write fails, the document's `read_temperature` and its dust batch run as the micro-operations
they expand into. -/
def Obligations.PseudoOperationsRunTheirExpansions : Prop :=
  PseudoOp.readTemperature.expand = [.rtCmd] ++ List.replicate 9 .rtByte ++ [.rtCheck] ∧
  PseudoOp.dustBatch.expand =
    (List.replicate 16 [.dsLedOn, .dsHoldRise, .dsSample, .dsHoldPulse, .dsLedOff,
      .dsHoldSettle]).flatten ++ [.dsConvert] ∧
  (∀ (s : State) (adr : Address),
    s.seqWord = 0x50 → s.addr[s.pidx.toNat]? = some adr → 10 ≤ s.busIn.length →
    microOps 11 s = PseudoOp.readTemperature.expand) ∧
  (∀ (s : State) (counts : List Count) (rest : List PinAnswer),
    s.seqWord = 0x60 → s.k = 0 → counts.length = 16 →
    s.pinIn = (counts.flatMap fun r => [⟨false, 0⟩, ⟨false, r⟩, ⟨false, 0⟩]) ++ rest → 48 ≤ s.dlyIn →
    microOps 97 s = PseudoOp.dustBatch.expand)

/-- R180: the conversion of any batch sum, by the integer form of R183. -/
def Obligations.DsConvertWritesTheDensity : Prop :=
  decode (.seq 0x66) = .ok .dsConvert ∧
  ∀ s : State,
    (s.sum.toNat ≤ 1964 → exec .dsConvert s = .next { s with vkind := 2, vnum := 0, ph := 7 }) ∧
    (1965 ≤ s.sum.toNat → s.sum.toNat ≤ 11457 →
      exec .dsConvert s = .next { s with
        vkind := 2, vnum := BitVec.ofNat 39 (125 * s.sum.toNat - 245520), ph := 7 }) ∧
    (11458 ≤ s.sum.toNat → exec .dsConvert s = .next { s with vkind := 2, vnum := 1424016, ph := 7 })

/-- R183, R181, R182: the integer numerator over 2 373 360 is the curve at the mean voltage, for every sum a
batch can have. -/
def Obligations.DustNumeratorIsTheCurveAtTheMean : Prop :=
  ∀ S : Nat, S ≤ 16368 →
    (dustNum S = if S ≤ 1964 then 0 else if S ≤ 11457 then 125 * (S : Int) - 245520 else 1424016) ∧
    valueQ 2 (vnumOf (dustNum S)) = some (dustOfSum S) ∧ dustOfSum S = (dustNum S : ℚ) / 2373360 ∧
    dustOfSum S = (if (5 * S : ℚ) / 16368 ≤ 3 / 5 then 0
      else if (5 * S : ℚ) / 16368 ≤ 7 / 2 then ((5 * S : ℚ) / 16368 - 3 / 5) / (29 / 5) else 3 / 5)

/-- R182, R171: the mean of the sixteen voltages is the voltage of the mean count, `5S / 16368`. -/
def Obligations.BatchMeanIsTheVoltageOfTheSum : Prop :=
  ∀ counts : List Count, counts.length = 16 →
    let S := (counts.map BitVec.toNat).sum
    (counts.map fun r => (5 * r.toNat : ℚ) / 1023).sum / 16 = dustMean S ∧
    dustMean S = (5 * S : ℚ) / 16368 ∧ 0 ≤ dustMean S ∧ dustMean S ≤ 5

/-- R184, R185: no batch mean is a breakpoint, and the densities leave the gap between 79107/158224 and 3/5. -/
def Obligations.DustMeansMissTheBreakpoints : Prop :=
  ∀ S : Nat, S ≤ 16368 →
    dustMean S ≠ 3 / 5 ∧ dustMean S ≠ 7 / 2 ∧ 0 ≤ dustOfSum S ∧
    (dustOfSum S = 3 / 5 ∨ dustOfSum S ≤ 79107 / 158224) ∧
    (dustOfSum S = 0 ∨ 105 / 2373360 ≤ dustOfSum S)

/-- R220: the density goes to persistence once. -/
def Obligations.DsPersistSendsTheDensityOnce : Prop :=
  decode (.seq 0x67) = .ok .dsPersist ∧
  ∀ (s : State) (a : PersAnswer) (rest : List PersAnswer), s.persIn = a :: rest →
    let sid : Sid := BitVec.ofNat 8 (s.cfg.nProbes + 1)
    (a.err = false → exec .dsPersist s = .next { s with
      persIn := rest, trace := s.trace ++ [.call (.insertReading sid s.vkind s.vnum) (.status .ok)],
      st := 7, ph := 0 }) ∧
    (a.err = true → s.pol = .halt → exec .dsPersist s = .next { s with
      persIn := rest,
      trace := s.trace ++ [.call (.insertReading sid s.vkind s.vnum) (.status .error), .diag sid 8],
      fault := true, faultCode := 8, faultSid := sid, st := 9, ph := 0 }) ∧
    (a.err = true → s.pol = .recover → exec .dsPersist s = .next { s with
      persIn := rest,
      trace := s.trace ++ [.call (.insertReading sid s.vkind s.vnum) (.status .error), .diag sid 8],
      st := 7, ph := 0 })

/-! ## Humidity -/

/-- R202: one sample through the quadratic. -/
def Obligations.HmSampleEvaluatesTheQuadratic : Prop :=
  decode (.seq 0x70) = .ok .hmSample ∧
  ∀ (s : State) (a : PinAnswer) (rest : List PinAnswer), s.pinIn = a :: rest →
    exec .hmSample s = .next { s with
      pinIn := rest, trace := s.trace ++ [.call (.analogRead .hum) (.count a.adc)],
      vkind := 3,
      vnum := BitVec.ofInt 39 (31325 * (a.adc.toNat : Int) ^ 2 + 132637065 * (a.adc.toNat : Int)
        - 7892921718),
      ph := 1 }

/-- R203 and part of R204: the integer numerator over 1 046 529 000 is the quadratic at the voltage, fits its 39 bits, rises
strictly, is negative up to 58 and exceeds 100 from 725. -/
def Obligations.HumidityNumeratorIsTheQuadratic : Prop :=
  (∀ r : Nat, r ≤ 1023 →
    humNum r = 31325 * (r : Int) ^ 2 + 132637065 * (r : Int) - 7892921718 ∧
    valueQ 3 (vnumOf (humNum r)) = some (humOfCount r) ∧ (vnumOf (humNum r)).toInt = humNum r ∧
    humOfCount r = 1253 / 1000 * (5 * r / 1023 : ℚ) ^ 2 + 25931 / 1000 * (5 * r / 1023 : ℚ) - 7542 / 1000 ∧
    (humOfCount r < 0 ↔ r ≤ 58) ∧ (100 < humOfCount r ↔ 725 ≤ r)) ∧
  (∀ q r : Nat, q < r → r ≤ 1023 → humNum q < humNum r) ∧
  humNum 0 = -7892921718 ∧ humNum 1023 = 160577316702

/-- R222: the humidity goes to persistence once. -/
def Obligations.HmPersistSendsTheHumidityOnce : Prop :=
  decode (.seq 0x71) = .ok .hmPersist ∧
  ∀ (s : State) (a : PersAnswer) (rest : List PersAnswer), s.persIn = a :: rest →
    let sid : Sid := BitVec.ofNat 8 (s.cfg.nProbes + 2)
    (a.err = false → exec .hmPersist s = .next { s with
      persIn := rest, trace := s.trace ++ [.call (.insertReading sid s.vkind s.vnum) (.status .ok)],
      st := 8, ph := 0 }) ∧
    (a.err = true → s.pol = .halt → exec .hmPersist s = .next { s with
      persIn := rest,
      trace := s.trace ++ [.call (.insertReading sid s.vkind s.vnum) (.status .error), .diag sid 8],
      fault := true, faultCode := 8, faultSid := sid, st := 9, ph := 0 }) ∧
    (a.err = true → s.pol = .recover → exec .hmPersist s = .next { s with
      persIn := rest,
      trace := s.trace ++ [.call (.insertReading sid s.vkind s.vnum) (.status .error), .diag sid 8],
      st := 8, ph := 0 })

/-! ## FAULT and failures -/

/-- R224, R264: `FAULT` changes nothing, for any number of steps. -/
def Obligations.FaultIsTerminal : Prop :=
  decode (.seq 0x90) = .ok .fault ∧ (∀ s : State, exec .fault s = .next { s with st := 9 }) ∧
  ∀ (n : Nat) (s : State), s.seqWord = 0x90 → runSteps n s = .next s

/-- R256, R257, R116: what raising each kind does, by kind and policy, and nothing else. -/
def Obligations.RaiseReportsThenFaultsOrContinues : Prop :=
  ∀ (s : State) (sid : Sid) (onward : State → State),
    (s.raise .pinWriteError sid onward = onward { s with trace := s.trace ++ [.diag sid 5] }) ∧
    (∀ e code, (e, code) ∈ [(ErrorKind.noDevicesFound, 1#4), (.insufficientDevices, 2#4),
        (.busDataError, 3#4)] →
      s.raise e sid onward = { s with
        trace := s.trace ++ [.diag sid code],
        fault := true, faultCode := code, faultSid := sid, st := 9, ph := 0 }) ∧
    (∀ e code, (e, code) ∈ [(ErrorKind.crcMismatch, 6#4), (.batchCollectionError, 7#4),
        (.persistenceError, 8#4)] →
      (s.pol = .halt → s.raise e sid onward = { s with
        trace := s.trace ++ [.diag sid code],
        fault := true, faultCode := code, faultSid := sid, st := 9, ph := 0 }) ∧
      (s.pol = .recover → s.raise e sid onward = onward { s with trace := s.trace ++ [.diag sid code] }))

/-- R257: under `RECOVER`, `FAULT` is entered only from the two startup micro-operations (or from a reserved
word, which no run reaches). -/
def Obligations.RecoverFaultsOnlyAtStartup : Prop :=
  ∀ (s t : State) (i : Instr), s.pol = .recover → decode (.seq s.seqWord) = .ok i →
    step s = .next t → t.st = 9 → i = .initReset ∨ i = .initEnum ∨ i = .fault

/-- R36, R37, R149: where `ADDR` or `SP` has no entry of the index named, the model stops
(the model's choice, notes/assumptions/9.md; no run gets there). -/
def Obligations.AbsentStorageStopsTheStep : Prop :=
  (∀ s : State, s.addr.length ≤ s.pidx.toNat →
    exec .startConversion s = .fault .addrSlotAbsent ∧ exec .rtCmd s = .fault .addrSlotAbsent) ∧
  (∀ (s : State) (a : BusAnswer) (rest : List BusAnswer), s.busIn = a :: rest → a.status = 0 →
    s.addr.length ≤ s.eidx.toNat → exec .initEnum s = .fault .addrSlotAbsent) ∧
  (∀ (s : State) (a : BusAnswer) (rest : List BusAnswer), s.busIn = a :: rest → 9 ≤ s.bcnt.toNat →
    exec .rtByte s = .fault .scratchOffsetAbsent)

/-! ## Calls -/

/-- R63 to R66, R120, R121: the four bus requests as instructions are the call alone (the model's choice for
these rows: notes/assumptions/11.md). That the last two read a status of 1 to 3 as success is the model's choice
too (notes/assumptions/8.md). -/
def Obligations.BusRequestsAreTheirCalls : Prop :=
  ∀ (s : State) (a : BusAnswer) (rest : List BusAnswer), s.busIn = a :: rest →
    (a.status = 0 → exec .resetBus s = .next { s with
      busIn := rest, trace := s.trace ++ [.call .resetBus (.reset .ok)] }) ∧
    (a.status = 1 → exec .resetBus s = .next { s with
      busIn := rest, trace := s.trace ++ [.call .resetBus (.reset .noDevices)] }) ∧
    (a.status = 2 → exec .resetBus s = .next { s with
      busIn := rest, trace := s.trace ++ [.call .resetBus (.reset .dataError)] }) ∧
    (∀ cont : Bool, a.status = 0 → exec (.enumerateNext cont) s = .next { s with
      busIn := rest, trace := s.trace ++ [.call (.enumerateNext cont) (.enum (.addr a.raddr))] }) ∧
    (∀ cont : Bool, a.status = 1 → exec (.enumerateNext cont) s = .next { s with
      busIn := rest, trace := s.trace ++ [.call (.enumerateNext cont) (.enum .noDevice)] }) ∧
    (∀ (cmd : Byte) (adr : Address), exec (.transaction cmd adr) s = .next { s with
      busIn := rest, trace := s.trace ++ [.call (.transaction cmd adr) .done] }) ∧
    exec .readByte s = .next { s with
      busIn := rest, trace := s.trace ++ [.call .readByte (.byte a.rdata)] }

/-- R68 to R72, R117, R122, R123: the requests of the other ports, and the diagnostic event (notes/assumptions/11.md,
as above). -/
def Obligations.PinPersistenceDelayAndDiagRequests : Prop :=
  (∀ (s : State) (a : PinAnswer) (rest : List PinAnswer) (level : Bool) (ch : Channel),
    s.pinIn = a :: rest →
    exec (.digitalWrite level) s = .next { s with
      pinIn := rest,
      trace := s.trace ++ [.call (.digitalWrite level) (.status (if a.err then .error else .ok))] } ∧
    exec (.analogRead ch) s = .next { s with
      pinIn := rest, trace := s.trace ++ [.call (.analogRead ch) (.count a.adc)] }) ∧
  (∀ (s : State) (a : PersAnswer) (rest : List PersAnswer) (sid : Sid) (kind : Vkind) (num : Vnum),
    s.persIn = a :: rest →
    exec (.insertReading sid kind num) s = .next { s with
      persIn := rest,
      trace := s.trace ++
        [.call (.insertReading sid kind num) (.status (if a.err then .error else .ok))] }) ∧
  (∀ (s : State) (n : Nat) (us : DelayUs), s.dlyIn = n + 1 →
    exec (.delay us) s = .next { s with
      dlyIn := n, trace := s.trace ++ [.call (.delay us) .done] }) ∧
  (∀ (s : State) (sid : Sid) (kind : BitVec 4),
    exec (.diag sid kind) s = .next { s with trace := s.trace ++ [.diag sid kind] })

/-- R62, V9: an instruction whose call is not answered leaves the whole state as it is (the model's reading of a
blocking call: notes/assumptions/2.md). -/
def Obligations.UnansweredCallsBlock : Prop :=
  ∀ (i : Instr) (s : State) (req : Request),
    callOfInstr i s = some req → answered req s = false → exec i s = .next s

/-- R10, R22, R62, R256, R266, R254: a step adds to the trace at most the one call `call_of` names, then at most
two diagnostic events, two only for a failed emitter write, none of a reserved kind; and the only step that
adds no call where one is pending is the one that waits. -/
def Obligations.StepMakesAtMostItsOneCall : Prop :=
  ∀ s t : State, step s = .next t →
    ∃ calls diags : List Event, t.trace = s.trace ++ calls ++ diags ∧
      ((∃ req res, callOf s = some req ∧ calls = [.call req res]) ∨
        (calls = [] ∧ (callOf s = none ∨ t = s))) ∧
      (diags = [] ∨ (∃ sid kind, diags = [.diag sid kind] ∧ kind ∈ [1#4, 2#4, 3#4, 6#4, 8#4]) ∨
        (∃ sid, diags = [.diag sid 5, .diag sid 7]))

/-- R44, R62, R73, R120, R122, R123: the outputs mirror the status registers, raise at most one request, and carry
the pending call's code and operands, one clause for each of the eight calls. That the request signals are a
function of the state, up while the call waits, is DEDUCED (notes/assumptions/22.md); signals no request drives
are not claimed. -/
def Obligations.OutputsCarryThePendingCall : Prop :=
  ∀ s : State,
    let o := outputs s
    o.st = s.st ∧ o.ph = s.ph ∧ o.fault = s.fault ∧ o.faultCode = s.faultCode ∧
    o.faultSid = s.faultSid ∧ o.pidx = s.pidx ∧
    o.busReq.toNat + o.pinReq.toNat + o.persReq.toNat + o.dlyReq.toNat =
      (if (callOf s).isSome then 1 else 0) ∧
    (callOf s = some .resetBus → o.busReq = true ∧ o.busOp = 0) ∧
    (callOf s = some .readByte → o.busReq = true ∧ o.busOp = 3) ∧
    (∀ cmd adr, callOf s = some (.transaction cmd adr) →
      o.busReq = true ∧ o.busOp = 2 ∧ o.busCmd = cmd ∧ o.busAddr = adr) ∧
    (∀ cont, callOf s = some (.enumerateNext cont) →
      o.busReq = true ∧ o.busOp = 1 ∧ o.busCont = BitVec.ofBool cont) ∧
    (∀ level, callOf s = some (.digitalWrite level) →
      o.pinReq = true ∧ o.pinOp = 0 ∧ o.pinLevel = BitVec.ofBool level) ∧
    (∀ ch, callOf s = some (.analogRead ch) →
      o.pinReq = true ∧ o.pinOp = 1 ∧ o.pinCh = (if ch = .dust then 0 else 1)) ∧
    (∀ sid kind num, callOf s = some (.insertReading sid kind num) →
      o.persReq = true ∧ o.persSid = sid ∧ o.persVkind = kind ∧ o.persVnum = num) ∧
    (∀ us, callOf s = some (.delay us) → o.dlyReq = true ∧ o.dlyUs = us)

/-! ## Frames over the whole machine -/

/-- The "written by" column of R47, with R33, R36, R37, R42: what each step leaves unchanged, whatever it ran.
Entries of `ADDR` and bytes of `SP` are read one by one. -/
def Obligations.RegistersChangeOnlyByTheirWriters : Prop :=
  ∀ s t : State, step s = .next t →
    t.cfg = s.cfg ∧ t.pol = s.pol ∧
    (s.seqWord ≠ 0x10 → t.eidx = s.eidx ∧ t.addr = s.addr) ∧
    (∀ j, j ≠ s.eidx → t.readAddr j = s.readAddr j) ∧
    (s.seqWord ≠ 0x51 → t.sp = s.sp) ∧
    (∀ j, j ≠ s.bcnt.toNat → t.readSp j = s.readSp j) ∧
    (s.seqWord ≠ 0x50 → s.seqWord ≠ 0x51 → t.bcnt = s.bcnt) ∧
    (s.seqWord ≠ 0x52 → s.seqWord ≠ 0x53 → t.pidx = s.pidx) ∧
    (s.seqWord ≠ 0x52 → s.seqWord ≠ 0x53 → s.seqWord ≠ 0x65 → t.k = s.k) ∧
    (s.seqWord ≠ 0x52 → s.seqWord ≠ 0x53 → s.seqWord ≠ 0x62 → t.sum = s.sum) ∧
    (s.seqWord ≠ 0x52 → s.seqWord ≠ 0x66 → s.seqWord ≠ 0x70 → t.vkind = s.vkind ∧ t.vnum = s.vnum) ∧
    (t.seqWord ≠ 0x90 → t.fault = s.fault ∧ t.faultCode = s.faultCode ∧ t.faultSid = s.faultSid)

/-! ## Invariants -/

/-- The invariant holds after every reset. -/
def Obligations.ResetMeetsTheInvariant : Prop :=
  (∀ (cfg : Config) (strap : Policy), (State.resetWith cfg strap).Inv) ∧ State.reset.Inv

/-- Every step keeps the invariant (R48 and what it rests on: R34 to R42, R115). -/
def Obligations.StepKeepsTheInvariant : Prop :=
  ∀ s t : State, s.Inv → step s = .next t → t.Inv

/-- R48: every reachable state, with the environment free to answer anything. -/
def Obligations.ReachableStatesMeetR48 : Prop := ∀ s : State, Reachable s → s.RuleR48

/-- R230: the machine has a step in every state of the invariant; it never stops with a fault or a refusal. -/
def Obligations.TheMachineAlwaysHasAStep : Prop := ∀ s : State, s.Inv → ∃ t, step s = .next t

/-- R115, R116, R117, R118, R84, V6: every call issued and every event emitted has operands the spec says occur. -/
def Obligations.EveryEventIsWellFormed : Prop :=
  ∀ s t : State, s.Inv → step s = .next t → ∀ e ∈ newEvents s t, e.wf = true

/-- R86 (a) and (b), R226: between two idle delays the ids sent to persistence strictly increase, within
`1..N_PROBES+2`. -/
def Obligations.RecordIdsIncreaseWithinACycle : Prop :=
  ∀ (n : Nat) (s t : State), s.Inv → runSteps n s = .next t →
    (∀ e ∈ newEvents s t, e.endsCycle = false) →
    (insertedIds (newEvents s t)).Pairwise (· < ·) ∧
    ∀ id ∈ insertedIds (newEvents s t), 1 ≤ id ∧ id ≤ s.cfg.nProbes + 2

/-- R275: in a cycle that reaches `SLEEP`, every sensor has a stored record or a diagnostic event that names it. -/
def Obligations.NoReadingIsLostSilently : Prop :=
  ∀ (n : Nat) (s t : State), s.Inv → s.seqWord = 0x30 → s.pidx = 0 → runSteps n s = .next t →
    t.seqWord = 0x80 → (∀ e ∈ newEvents s t, e.endsCycle = false) →
    ∀ sid : Sid, 1 ≤ sid.toNat → sid.toNat ≤ s.cfg.nProbes + 2 → accountsFor sid (newEvents s t)

/-- R230: if the calls are answered, every cycle ends under `RECOVER`, and ends or enters `FAULT` under `HALT`,
within `13 N_PROBES + 100` calls. -/
def Obligations.EveryAnsweredCycleEnds : Prop :=
  ∀ s : State, s.Inv → s.seqWord = 0x30 → s.pidx = 0 →
    11 * s.cfg.nProbes ≤ s.busIn.length → 49 ≤ s.pinIn.length →
    s.cfg.nProbes + 2 ≤ s.persIn.length → s.cfg.nProbes + 49 ≤ s.dlyIn →
    ∃ n t, n ≤ 14 * s.cfg.nProbes + 101 ∧ runSteps n s = .next t ∧
      ((t.seqWord = 0x30 ∧ t.pidx = 0 ∧ ∃ e ∈ newEvents s t, e.endsCycle = true) ∨
        (s.pol = .halt ∧ t.seqWord = 0x90)) ∧
      ((newEvents s t).filter fun e => e matches .call _ _).length ≤ 13 * s.cfg.nProbes + 100

/-- R230, R282: if its calls are answered, startup ends in `IDLE` or `FAULT` after at most `1 + N_PROBES` calls. -/
def Obligations.AnsweredStartupEnds : Prop :=
  ∀ s : State, s.Inv → s.seqWord = 0x00 → s.cfg.nProbes + 1 ≤ s.busIn.length →
    ∃ n t, n ≤ s.cfg.nProbes + 1 ∧ runSteps n s = .next t ∧ (t.seqWord = 0x20 ∨ t.seqWord = 0x90)

/-! ## Codec functions -/

/-- R144: the default CRC is the register that starts at `0x00`, takes bytes 0 to 7 in order, each least significant
bit first, and shifts right with the feedback constant `0x8C`. It detects every single-bit change, gives 0 on eight zero bytes, and gives 0 over a
string with its own CRC appended. -/
def Obligations.DefaultCrcDetectsSingleBits : Prop :=
  (∀ x : Vector Byte 8, crcOneWire x =
    x.toList.foldl (fun (reg b : Byte) => (List.range 8).foldl (fun (reg : Byte) j =>
      if reg.getLsbD 0 != b.getLsbD j then (reg >>> 1) ^^^ 0x8C else reg >>> 1) reg) 0x00) ∧
  DetectsSingleBit crcOneWire ∧ crcOneWire (Vector.replicate 8 0) = 0 ∧
  ∀ x : Vector Byte 8, crcRegister (x.toList ++ [crcOneWire x]) = 0

/-- R143: an accepted frame with one of its first 64 bits inverted is a `CrcMismatch` and leaves the value alone:
with the default CRC always, with a driver's CRC where it sees that inversion. The probe index is in its range
(R34, in the invariant). -/
def Obligations.SingleBitErrorsAreRejected : Prop :=
  ∀ (s : State) (i j : Fin 8),
    (s.cfg.crc = .oneWire ∨ crc8 s.cfg (flipBit (framePayload s.sp) i j) ≠ crc8 s.cfg (framePayload s.sp)) →
    crcMatch s = true → s.pidx.toNat < s.cfg.nProbes →
    let bad : State := { s with sp := s.sp.set i.val (s.sp[i.val] ^^^ (1#8 <<< j.val)) }
    ∃ t, exec .rtCheck bad = .next t ∧ t.vkind = s.vkind ∧ t.vnum = s.vnum ∧
      t.trace = s.trace ++ [.diag (s.pidx + 1) 6]

/-- R151: every representable temperature survives encoding, transport with a valid CRC and decoding. -/
def Obligations.TemperatureRoundTrip : Prop :=
  ∀ (s : State) (t16 : Int), -32768 ≤ t16 → t16 ≤ 32767 →
    s.sp[0] = BitVec.ofInt 8 (t16 % 65536 % 256) → s.sp[1] = BitVec.ofInt 8 (t16 % 65536 / 256) →
    s.sp[8] = crc8 s.cfg #v[s.sp[0], s.sp[1], s.sp[2], s.sp[3], s.sp[4], s.sp[5], s.sp[6], s.sp[7]] →
    ∃ t, exec .rtCheck s = .next t ∧ t.vkind = 1 ∧ t.vnum.toInt = t16 ∧
      valueQ t.vkind t.vnum = some ((t16 : ℚ) / 16) ∧ t.trace = s.trace

/-- R43, R145, R147: the three predicates are what the steps that read them use, and a temperature means
`t16 / 16`. -/
def Obligations.PredicatesSayWhatTheirReadersUse : Prop :=
  (∀ s : State,
    (negFlag s = true ↔ decodeRaw s.sp[0] s.sp[1] < 0) ∧
    (crcMatch s = true ↔ crc8 s.cfg #v[s.sp[0], s.sp[1], s.sp[2], s.sp[3], s.sp[4], s.sp[5], s.sp[6],
      s.sp[7]] = s.sp[8]) ∧
    (s.pidx.toNat < s.cfg.nProbes → (lastProbe s = true ↔ s.advance.st = 6))) ∧
  ∀ b0 b1 : Byte, valueQ 1 (vnumOf (decodeRaw b0 b1)) = some (tempQ (decodeRaw b0 b1)) ∧
    tempQ (decodeRaw b0 b1) = (decodeRaw b0 b1 : ℚ) / 16

/-- R75, R110: an address is its eight bytes, byte `i` in bits `[8i+7:8i]`. -/
def Obligations.AddressIsItsEightBytes : Prop :=
  ∀ a : Address, addrOfBytes (addrBytes a) = a ∧ (addrBytes a).length = 8 ∧
    ∀ i : Nat, i < 8 → (addrBytes a)[i]? = some ((a >>> (8 * i)).setWidth 8)

/-- R146: the signed reading of the field is the document's own procedure, negate by `~raw + 1` when bit 7 of
byte 1 is set, at `0x8000` too. -/
def Obligations.SignedReadingIsTheDocumentsProcedure : Prop :=
  ∀ b0 b1 : Byte,
    let raw := 256 * b1.toNat + b0.toNat
    (decodeRaw b0 b1 =
      if b1.getLsbD 7 then -(((65535 - raw + 1) % 65536 : Nat) : Int) else (raw : Int)) ∧
    (b1.getLsbD 7 = true → decodeRaw b0 b1 = (raw : Int) - 65536) ∧
    -32768 ≤ decodeRaw b0 b1 ∧ decodeRaw b0 b1 ≤ 32767

/-! ## The source of every record -/

/-- The first half of R275: in any run from the start of a cycle, an insert directly follows the calls its value is
computed from: nine bytes of a frame whose CRC matches, or sixteen samples with no failed write, or one humidity
count. -/
def Obligations.EveryRecordCarriesAFreshValue : Prop :=
  ∀ (n : Nat) (s t : State) (before after : List Event) (sid : Sid) (kind : Vkind) (num : Vnum) (r : Result),
    s.seqWord = 0x30 → runSteps n s = .next t →
    newEvents s t = before ++ .call (.insertReading sid kind num) r :: after →
    (∃ (earlier : List Event) (frame : Vector Byte 9),
      before = earlier ++ frame.toList.map (fun b => .call .readByte (.byte b)) ∧
      crc8 s.cfg #v[frame[0], frame[1], frame[2], frame[3], frame[4], frame[5], frame[6], frame[7]] =
        frame[8] ∧
      kind = 1 ∧ num = (frame[1] ++ frame[0] : BitVec 16).signExtend 39) ∨
    (∃ (earlier : List Event) (counts : List Count), counts.length = 16 ∧
      before = earlier ++ (counts.flatMap fun r =>
        [.call (.digitalWrite true) (.status .ok), .call (.delay 280) .done,
          .call (.analogRead .dust) (.count r), .call (.delay 40) .done,
          .call (.digitalWrite false) (.status .ok), .call (.delay 9680) .done]) ∧
      kind = 2 ∧ num = vnumOf (dustNum (counts.map BitVec.toNat).sum)) ∨
    (∃ (earlier : List Event) (count : Count),
      before = earlier ++ [.call (.analogRead .hum) (.count count)] ∧
      kind = 3 ∧ num = vnumOf (humNum count.toNat))
end

