-- ==== Sys2Proof/Laws/State.lean ====
section
/-! SUPPORT. What each update of the state does to each field; all true by unfolding. -/

namespace Sys2Proof.Machine

variable (s : State)

/-! ## setSt -/

@[simp] theorem State.setSt_st (x : BitVec 4) :
    (s.setSt x).st = x := rfl
@[simp] theorem State.setSt_ph (x : BitVec 4) :
    (s.setSt x).ph = s.ph := rfl
@[simp] theorem State.setSt_pol (x : BitVec 4) :
    (s.setSt x).pol = s.pol := rfl
@[simp] theorem State.setSt_eidx (x : BitVec 4) :
    (s.setSt x).eidx = s.eidx := rfl
@[simp] theorem State.setSt_pidx (x : BitVec 4) :
    (s.setSt x).pidx = s.pidx := rfl
@[simp] theorem State.setSt_addr (x : BitVec 4) :
    (s.setSt x).addr = s.addr := rfl
@[simp] theorem State.setSt_sp (x : BitVec 4) :
    (s.setSt x).sp = s.sp := rfl
@[simp] theorem State.setSt_bcnt (x : BitVec 4) :
    (s.setSt x).bcnt = s.bcnt := rfl
@[simp] theorem State.setSt_k (x : BitVec 4) :
    (s.setSt x).k = s.k := rfl
@[simp] theorem State.setSt_sum (x : BitVec 4) :
    (s.setSt x).sum = s.sum := rfl
@[simp] theorem State.setSt_vkind (x : BitVec 4) :
    (s.setSt x).vkind = s.vkind := rfl
@[simp] theorem State.setSt_vnum (x : BitVec 4) :
    (s.setSt x).vnum = s.vnum := rfl
@[simp] theorem State.setSt_fault (x : BitVec 4) :
    (s.setSt x).fault = s.fault := rfl
@[simp] theorem State.setSt_faultCode (x : BitVec 4) :
    (s.setSt x).faultCode = s.faultCode := rfl
@[simp] theorem State.setSt_faultSid (x : BitVec 4) :
    (s.setSt x).faultSid = s.faultSid := rfl
@[simp] theorem State.setSt_cfg (x : BitVec 4) :
    (s.setSt x).cfg = s.cfg := rfl
@[simp] theorem State.setSt_busIn (x : BitVec 4) :
    (s.setSt x).busIn = s.busIn := rfl
@[simp] theorem State.setSt_pinIn (x : BitVec 4) :
    (s.setSt x).pinIn = s.pinIn := rfl
@[simp] theorem State.setSt_persIn (x : BitVec 4) :
    (s.setSt x).persIn = s.persIn := rfl
@[simp] theorem State.setSt_dlyIn (x : BitVec 4) :
    (s.setSt x).dlyIn = s.dlyIn := rfl
@[simp] theorem State.setSt_trace (x : BitVec 4) :
    (s.setSt x).trace = s.trace := rfl

/-! ## setPh -/

@[simp] theorem State.setPh_st (y : BitVec 4) :
    (s.setPh y).st = s.st := rfl
@[simp] theorem State.setPh_ph (y : BitVec 4) :
    (s.setPh y).ph = y := rfl
@[simp] theorem State.setPh_pol (y : BitVec 4) :
    (s.setPh y).pol = s.pol := rfl
@[simp] theorem State.setPh_eidx (y : BitVec 4) :
    (s.setPh y).eidx = s.eidx := rfl
@[simp] theorem State.setPh_pidx (y : BitVec 4) :
    (s.setPh y).pidx = s.pidx := rfl
@[simp] theorem State.setPh_addr (y : BitVec 4) :
    (s.setPh y).addr = s.addr := rfl
@[simp] theorem State.setPh_sp (y : BitVec 4) :
    (s.setPh y).sp = s.sp := rfl
@[simp] theorem State.setPh_bcnt (y : BitVec 4) :
    (s.setPh y).bcnt = s.bcnt := rfl
@[simp] theorem State.setPh_k (y : BitVec 4) :
    (s.setPh y).k = s.k := rfl
@[simp] theorem State.setPh_sum (y : BitVec 4) :
    (s.setPh y).sum = s.sum := rfl
@[simp] theorem State.setPh_vkind (y : BitVec 4) :
    (s.setPh y).vkind = s.vkind := rfl
@[simp] theorem State.setPh_vnum (y : BitVec 4) :
    (s.setPh y).vnum = s.vnum := rfl
@[simp] theorem State.setPh_fault (y : BitVec 4) :
    (s.setPh y).fault = s.fault := rfl
@[simp] theorem State.setPh_faultCode (y : BitVec 4) :
    (s.setPh y).faultCode = s.faultCode := rfl
@[simp] theorem State.setPh_faultSid (y : BitVec 4) :
    (s.setPh y).faultSid = s.faultSid := rfl
@[simp] theorem State.setPh_cfg (y : BitVec 4) :
    (s.setPh y).cfg = s.cfg := rfl
@[simp] theorem State.setPh_busIn (y : BitVec 4) :
    (s.setPh y).busIn = s.busIn := rfl
@[simp] theorem State.setPh_pinIn (y : BitVec 4) :
    (s.setPh y).pinIn = s.pinIn := rfl
@[simp] theorem State.setPh_persIn (y : BitVec 4) :
    (s.setPh y).persIn = s.persIn := rfl
@[simp] theorem State.setPh_dlyIn (y : BitVec 4) :
    (s.setPh y).dlyIn = s.dlyIn := rfl
@[simp] theorem State.setPh_trace (y : BitVec 4) :
    (s.setPh y).trace = s.trace := rfl

/-! ## goto -/

@[simp] theorem State.goto_st (x y : BitVec 4) :
    (s.goto x y).st = x := rfl
@[simp] theorem State.goto_ph (x y : BitVec 4) :
    (s.goto x y).ph = y := rfl
@[simp] theorem State.goto_pol (x y : BitVec 4) :
    (s.goto x y).pol = s.pol := rfl
@[simp] theorem State.goto_eidx (x y : BitVec 4) :
    (s.goto x y).eidx = s.eidx := rfl
@[simp] theorem State.goto_pidx (x y : BitVec 4) :
    (s.goto x y).pidx = s.pidx := rfl
@[simp] theorem State.goto_addr (x y : BitVec 4) :
    (s.goto x y).addr = s.addr := rfl
@[simp] theorem State.goto_sp (x y : BitVec 4) :
    (s.goto x y).sp = s.sp := rfl
@[simp] theorem State.goto_bcnt (x y : BitVec 4) :
    (s.goto x y).bcnt = s.bcnt := rfl
@[simp] theorem State.goto_k (x y : BitVec 4) :
    (s.goto x y).k = s.k := rfl
@[simp] theorem State.goto_sum (x y : BitVec 4) :
    (s.goto x y).sum = s.sum := rfl
@[simp] theorem State.goto_vkind (x y : BitVec 4) :
    (s.goto x y).vkind = s.vkind := rfl
@[simp] theorem State.goto_vnum (x y : BitVec 4) :
    (s.goto x y).vnum = s.vnum := rfl
@[simp] theorem State.goto_fault (x y : BitVec 4) :
    (s.goto x y).fault = s.fault := rfl
@[simp] theorem State.goto_faultCode (x y : BitVec 4) :
    (s.goto x y).faultCode = s.faultCode := rfl
@[simp] theorem State.goto_faultSid (x y : BitVec 4) :
    (s.goto x y).faultSid = s.faultSid := rfl
@[simp] theorem State.goto_cfg (x y : BitVec 4) :
    (s.goto x y).cfg = s.cfg := rfl
@[simp] theorem State.goto_busIn (x y : BitVec 4) :
    (s.goto x y).busIn = s.busIn := rfl
@[simp] theorem State.goto_pinIn (x y : BitVec 4) :
    (s.goto x y).pinIn = s.pinIn := rfl
@[simp] theorem State.goto_persIn (x y : BitVec 4) :
    (s.goto x y).persIn = s.persIn := rfl
@[simp] theorem State.goto_dlyIn (x y : BitVec 4) :
    (s.goto x y).dlyIn = s.dlyIn := rfl
@[simp] theorem State.goto_trace (x y : BitVec 4) :
    (s.goto x y).trace = s.trace := rfl

/-! ## setVal -/

@[simp] theorem State.setVal_st (kind : Vkind) (n : Int) :
    (s.setVal kind n).st = s.st := rfl
@[simp] theorem State.setVal_ph (kind : Vkind) (n : Int) :
    (s.setVal kind n).ph = s.ph := rfl
@[simp] theorem State.setVal_pol (kind : Vkind) (n : Int) :
    (s.setVal kind n).pol = s.pol := rfl
@[simp] theorem State.setVal_eidx (kind : Vkind) (n : Int) :
    (s.setVal kind n).eidx = s.eidx := rfl
@[simp] theorem State.setVal_pidx (kind : Vkind) (n : Int) :
    (s.setVal kind n).pidx = s.pidx := rfl
@[simp] theorem State.setVal_addr (kind : Vkind) (n : Int) :
    (s.setVal kind n).addr = s.addr := rfl
@[simp] theorem State.setVal_sp (kind : Vkind) (n : Int) :
    (s.setVal kind n).sp = s.sp := rfl
@[simp] theorem State.setVal_bcnt (kind : Vkind) (n : Int) :
    (s.setVal kind n).bcnt = s.bcnt := rfl
@[simp] theorem State.setVal_k (kind : Vkind) (n : Int) :
    (s.setVal kind n).k = s.k := rfl
@[simp] theorem State.setVal_sum (kind : Vkind) (n : Int) :
    (s.setVal kind n).sum = s.sum := rfl
@[simp] theorem State.setVal_vkind (kind : Vkind) (n : Int) :
    (s.setVal kind n).vkind = kind := rfl
@[simp] theorem State.setVal_vnum (kind : Vkind) (n : Int) :
    (s.setVal kind n).vnum = vnumOf n := rfl
@[simp] theorem State.setVal_fault (kind : Vkind) (n : Int) :
    (s.setVal kind n).fault = s.fault := rfl
@[simp] theorem State.setVal_faultCode (kind : Vkind) (n : Int) :
    (s.setVal kind n).faultCode = s.faultCode := rfl
@[simp] theorem State.setVal_faultSid (kind : Vkind) (n : Int) :
    (s.setVal kind n).faultSid = s.faultSid := rfl
@[simp] theorem State.setVal_cfg (kind : Vkind) (n : Int) :
    (s.setVal kind n).cfg = s.cfg := rfl
@[simp] theorem State.setVal_busIn (kind : Vkind) (n : Int) :
    (s.setVal kind n).busIn = s.busIn := rfl
@[simp] theorem State.setVal_pinIn (kind : Vkind) (n : Int) :
    (s.setVal kind n).pinIn = s.pinIn := rfl
@[simp] theorem State.setVal_persIn (kind : Vkind) (n : Int) :
    (s.setVal kind n).persIn = s.persIn := rfl
@[simp] theorem State.setVal_dlyIn (kind : Vkind) (n : Int) :
    (s.setVal kind n).dlyIn = s.dlyIn := rfl
@[simp] theorem State.setVal_trace (kind : Vkind) (n : Int) :
    (s.setVal kind n).trace = s.trace := rfl

/-! ## record -/

@[simp] theorem State.record_st (req : Request) (r : Result) :
    (s.record req r).st = s.st := rfl
@[simp] theorem State.record_ph (req : Request) (r : Result) :
    (s.record req r).ph = s.ph := rfl
@[simp] theorem State.record_pol (req : Request) (r : Result) :
    (s.record req r).pol = s.pol := rfl
@[simp] theorem State.record_eidx (req : Request) (r : Result) :
    (s.record req r).eidx = s.eidx := rfl
@[simp] theorem State.record_pidx (req : Request) (r : Result) :
    (s.record req r).pidx = s.pidx := rfl
@[simp] theorem State.record_addr (req : Request) (r : Result) :
    (s.record req r).addr = s.addr := rfl
@[simp] theorem State.record_sp (req : Request) (r : Result) :
    (s.record req r).sp = s.sp := rfl
@[simp] theorem State.record_bcnt (req : Request) (r : Result) :
    (s.record req r).bcnt = s.bcnt := rfl
@[simp] theorem State.record_k (req : Request) (r : Result) :
    (s.record req r).k = s.k := rfl
@[simp] theorem State.record_sum (req : Request) (r : Result) :
    (s.record req r).sum = s.sum := rfl
@[simp] theorem State.record_vkind (req : Request) (r : Result) :
    (s.record req r).vkind = s.vkind := rfl
@[simp] theorem State.record_vnum (req : Request) (r : Result) :
    (s.record req r).vnum = s.vnum := rfl
@[simp] theorem State.record_fault (req : Request) (r : Result) :
    (s.record req r).fault = s.fault := rfl
@[simp] theorem State.record_faultCode (req : Request) (r : Result) :
    (s.record req r).faultCode = s.faultCode := rfl
@[simp] theorem State.record_faultSid (req : Request) (r : Result) :
    (s.record req r).faultSid = s.faultSid := rfl
@[simp] theorem State.record_cfg (req : Request) (r : Result) :
    (s.record req r).cfg = s.cfg := rfl
@[simp] theorem State.record_busIn (req : Request) (r : Result) :
    (s.record req r).busIn = s.busIn := rfl
@[simp] theorem State.record_pinIn (req : Request) (r : Result) :
    (s.record req r).pinIn = s.pinIn := rfl
@[simp] theorem State.record_persIn (req : Request) (r : Result) :
    (s.record req r).persIn = s.persIn := rfl
@[simp] theorem State.record_dlyIn (req : Request) (r : Result) :
    (s.record req r).dlyIn = s.dlyIn := rfl
@[simp] theorem State.record_trace (req : Request) (r : Result) :
    (s.record req r).trace = s.trace ++ [.call req r] := rfl

/-! ## emit -/

@[simp] theorem State.emit_st (sid : Sid) (kind : BitVec 4) :
    (s.emit sid kind).st = s.st := rfl
@[simp] theorem State.emit_ph (sid : Sid) (kind : BitVec 4) :
    (s.emit sid kind).ph = s.ph := rfl
@[simp] theorem State.emit_pol (sid : Sid) (kind : BitVec 4) :
    (s.emit sid kind).pol = s.pol := rfl
@[simp] theorem State.emit_eidx (sid : Sid) (kind : BitVec 4) :
    (s.emit sid kind).eidx = s.eidx := rfl
@[simp] theorem State.emit_pidx (sid : Sid) (kind : BitVec 4) :
    (s.emit sid kind).pidx = s.pidx := rfl
@[simp] theorem State.emit_addr (sid : Sid) (kind : BitVec 4) :
    (s.emit sid kind).addr = s.addr := rfl
@[simp] theorem State.emit_sp (sid : Sid) (kind : BitVec 4) :
    (s.emit sid kind).sp = s.sp := rfl
@[simp] theorem State.emit_bcnt (sid : Sid) (kind : BitVec 4) :
    (s.emit sid kind).bcnt = s.bcnt := rfl
@[simp] theorem State.emit_k (sid : Sid) (kind : BitVec 4) :
    (s.emit sid kind).k = s.k := rfl
@[simp] theorem State.emit_sum (sid : Sid) (kind : BitVec 4) :
    (s.emit sid kind).sum = s.sum := rfl
@[simp] theorem State.emit_vkind (sid : Sid) (kind : BitVec 4) :
    (s.emit sid kind).vkind = s.vkind := rfl
@[simp] theorem State.emit_vnum (sid : Sid) (kind : BitVec 4) :
    (s.emit sid kind).vnum = s.vnum := rfl
@[simp] theorem State.emit_fault (sid : Sid) (kind : BitVec 4) :
    (s.emit sid kind).fault = s.fault := rfl
@[simp] theorem State.emit_faultCode (sid : Sid) (kind : BitVec 4) :
    (s.emit sid kind).faultCode = s.faultCode := rfl
@[simp] theorem State.emit_faultSid (sid : Sid) (kind : BitVec 4) :
    (s.emit sid kind).faultSid = s.faultSid := rfl
@[simp] theorem State.emit_cfg (sid : Sid) (kind : BitVec 4) :
    (s.emit sid kind).cfg = s.cfg := rfl
@[simp] theorem State.emit_busIn (sid : Sid) (kind : BitVec 4) :
    (s.emit sid kind).busIn = s.busIn := rfl
@[simp] theorem State.emit_pinIn (sid : Sid) (kind : BitVec 4) :
    (s.emit sid kind).pinIn = s.pinIn := rfl
@[simp] theorem State.emit_persIn (sid : Sid) (kind : BitVec 4) :
    (s.emit sid kind).persIn = s.persIn := rfl
@[simp] theorem State.emit_dlyIn (sid : Sid) (kind : BitVec 4) :
    (s.emit sid kind).dlyIn = s.dlyIn := rfl
@[simp] theorem State.emit_trace (sid : Sid) (kind : BitVec 4) :
    (s.emit sid kind).trace = s.trace ++ [.diag sid kind] := rfl

/-! ## enterFault -/

@[simp] theorem State.enterFault_st (e : ErrorKind) (sid : Sid) :
    (s.enterFault e sid).st = stFault := rfl
@[simp] theorem State.enterFault_ph (e : ErrorKind) (sid : Sid) :
    (s.enterFault e sid).ph = 0 := rfl
@[simp] theorem State.enterFault_pol (e : ErrorKind) (sid : Sid) :
    (s.enterFault e sid).pol = s.pol := rfl
@[simp] theorem State.enterFault_eidx (e : ErrorKind) (sid : Sid) :
    (s.enterFault e sid).eidx = s.eidx := rfl
@[simp] theorem State.enterFault_pidx (e : ErrorKind) (sid : Sid) :
    (s.enterFault e sid).pidx = s.pidx := rfl
@[simp] theorem State.enterFault_addr (e : ErrorKind) (sid : Sid) :
    (s.enterFault e sid).addr = s.addr := rfl
@[simp] theorem State.enterFault_sp (e : ErrorKind) (sid : Sid) :
    (s.enterFault e sid).sp = s.sp := rfl
@[simp] theorem State.enterFault_bcnt (e : ErrorKind) (sid : Sid) :
    (s.enterFault e sid).bcnt = s.bcnt := rfl
@[simp] theorem State.enterFault_k (e : ErrorKind) (sid : Sid) :
    (s.enterFault e sid).k = s.k := rfl
@[simp] theorem State.enterFault_sum (e : ErrorKind) (sid : Sid) :
    (s.enterFault e sid).sum = s.sum := rfl
@[simp] theorem State.enterFault_vkind (e : ErrorKind) (sid : Sid) :
    (s.enterFault e sid).vkind = s.vkind := rfl
@[simp] theorem State.enterFault_vnum (e : ErrorKind) (sid : Sid) :
    (s.enterFault e sid).vnum = s.vnum := rfl
@[simp] theorem State.enterFault_fault (e : ErrorKind) (sid : Sid) :
    (s.enterFault e sid).fault = true := rfl
@[simp] theorem State.enterFault_faultCode (e : ErrorKind) (sid : Sid) :
    (s.enterFault e sid).faultCode = errorCode e := rfl
@[simp] theorem State.enterFault_faultSid (e : ErrorKind) (sid : Sid) :
    (s.enterFault e sid).faultSid = sid := rfl
@[simp] theorem State.enterFault_cfg (e : ErrorKind) (sid : Sid) :
    (s.enterFault e sid).cfg = s.cfg := rfl
@[simp] theorem State.enterFault_busIn (e : ErrorKind) (sid : Sid) :
    (s.enterFault e sid).busIn = s.busIn := rfl
@[simp] theorem State.enterFault_pinIn (e : ErrorKind) (sid : Sid) :
    (s.enterFault e sid).pinIn = s.pinIn := rfl
@[simp] theorem State.enterFault_persIn (e : ErrorKind) (sid : Sid) :
    (s.enterFault e sid).persIn = s.persIn := rfl
@[simp] theorem State.enterFault_dlyIn (e : ErrorKind) (sid : Sid) :
    (s.enterFault e sid).dlyIn = s.dlyIn := rfl
@[simp] theorem State.enterFault_trace (e : ErrorKind) (sid : Sid) :
    (s.enterFault e sid).trace = s.trace := rfl

/-! ## reservedWord -/

@[simp] theorem State.reservedWord_st :
    (s.reservedWord).st = stFault := rfl
@[simp] theorem State.reservedWord_ph :
    (s.reservedWord).ph = 0 := rfl
@[simp] theorem State.reservedWord_pol :
    (s.reservedWord).pol = s.pol := rfl
@[simp] theorem State.reservedWord_eidx :
    (s.reservedWord).eidx = s.eidx := rfl
@[simp] theorem State.reservedWord_pidx :
    (s.reservedWord).pidx = s.pidx := rfl
@[simp] theorem State.reservedWord_addr :
    (s.reservedWord).addr = s.addr := rfl
@[simp] theorem State.reservedWord_sp :
    (s.reservedWord).sp = s.sp := rfl
@[simp] theorem State.reservedWord_bcnt :
    (s.reservedWord).bcnt = s.bcnt := rfl
@[simp] theorem State.reservedWord_k :
    (s.reservedWord).k = s.k := rfl
@[simp] theorem State.reservedWord_sum :
    (s.reservedWord).sum = s.sum := rfl
@[simp] theorem State.reservedWord_vkind :
    (s.reservedWord).vkind = s.vkind := rfl
@[simp] theorem State.reservedWord_vnum :
    (s.reservedWord).vnum = s.vnum := rfl
@[simp] theorem State.reservedWord_fault :
    (s.reservedWord).fault = true := rfl
@[simp] theorem State.reservedWord_faultCode :
    (s.reservedWord).faultCode = s.faultCode := rfl
@[simp] theorem State.reservedWord_faultSid :
    (s.reservedWord).faultSid = s.faultSid := rfl
@[simp] theorem State.reservedWord_cfg :
    (s.reservedWord).cfg = s.cfg := rfl
@[simp] theorem State.reservedWord_busIn :
    (s.reservedWord).busIn = s.busIn := rfl
@[simp] theorem State.reservedWord_pinIn :
    (s.reservedWord).pinIn = s.pinIn := rfl
@[simp] theorem State.reservedWord_persIn :
    (s.reservedWord).persIn = s.persIn := rfl
@[simp] theorem State.reservedWord_dlyIn :
    (s.reservedWord).dlyIn = s.dlyIn := rfl
@[simp] theorem State.reservedWord_trace :
    (s.reservedWord).trace = s.trace := rfl

/-! ## enterReadDust -/

@[simp] theorem State.enterReadDust_st :
    (s.enterReadDust).st = stReadDust := rfl
@[simp] theorem State.enterReadDust_ph :
    (s.enterReadDust).ph = 0 := rfl
@[simp] theorem State.enterReadDust_pol :
    (s.enterReadDust).pol = s.pol := rfl
@[simp] theorem State.enterReadDust_eidx :
    (s.enterReadDust).eidx = s.eidx := rfl
@[simp] theorem State.enterReadDust_pidx :
    (s.enterReadDust).pidx = s.pidx := rfl
@[simp] theorem State.enterReadDust_addr :
    (s.enterReadDust).addr = s.addr := rfl
@[simp] theorem State.enterReadDust_sp :
    (s.enterReadDust).sp = s.sp := rfl
@[simp] theorem State.enterReadDust_bcnt :
    (s.enterReadDust).bcnt = s.bcnt := rfl
@[simp] theorem State.enterReadDust_k :
    (s.enterReadDust).k = 0 := rfl
@[simp] theorem State.enterReadDust_sum :
    (s.enterReadDust).sum = 0 := rfl
@[simp] theorem State.enterReadDust_vkind :
    (s.enterReadDust).vkind = s.vkind := rfl
@[simp] theorem State.enterReadDust_vnum :
    (s.enterReadDust).vnum = s.vnum := rfl
@[simp] theorem State.enterReadDust_fault :
    (s.enterReadDust).fault = s.fault := rfl
@[simp] theorem State.enterReadDust_faultCode :
    (s.enterReadDust).faultCode = s.faultCode := rfl
@[simp] theorem State.enterReadDust_faultSid :
    (s.enterReadDust).faultSid = s.faultSid := rfl
@[simp] theorem State.enterReadDust_cfg :
    (s.enterReadDust).cfg = s.cfg := rfl
@[simp] theorem State.enterReadDust_busIn :
    (s.enterReadDust).busIn = s.busIn := rfl
@[simp] theorem State.enterReadDust_pinIn :
    (s.enterReadDust).pinIn = s.pinIn := rfl
@[simp] theorem State.enterReadDust_persIn :
    (s.enterReadDust).persIn = s.persIn := rfl
@[simp] theorem State.enterReadDust_dlyIn :
    (s.enterReadDust).dlyIn = s.dlyIn := rfl
@[simp] theorem State.enterReadDust_trace :
    (s.enterReadDust).trace = s.trace := rfl

/-! ## withAnswers -/

@[simp] theorem State.withAnswers_st (b : List BusAnswer) (p : List PinAnswer) (q : List PersAnswer) (d : Nat) :
    (s.withAnswers b p q d).st = s.st := rfl
@[simp] theorem State.withAnswers_ph (b : List BusAnswer) (p : List PinAnswer) (q : List PersAnswer) (d : Nat) :
    (s.withAnswers b p q d).ph = s.ph := rfl
@[simp] theorem State.withAnswers_pol (b : List BusAnswer) (p : List PinAnswer) (q : List PersAnswer) (d : Nat) :
    (s.withAnswers b p q d).pol = s.pol := rfl
@[simp] theorem State.withAnswers_eidx (b : List BusAnswer) (p : List PinAnswer) (q : List PersAnswer) (d : Nat) :
    (s.withAnswers b p q d).eidx = s.eidx := rfl
@[simp] theorem State.withAnswers_pidx (b : List BusAnswer) (p : List PinAnswer) (q : List PersAnswer) (d : Nat) :
    (s.withAnswers b p q d).pidx = s.pidx := rfl
@[simp] theorem State.withAnswers_addr (b : List BusAnswer) (p : List PinAnswer) (q : List PersAnswer) (d : Nat) :
    (s.withAnswers b p q d).addr = s.addr := rfl
@[simp] theorem State.withAnswers_sp (b : List BusAnswer) (p : List PinAnswer) (q : List PersAnswer) (d : Nat) :
    (s.withAnswers b p q d).sp = s.sp := rfl
@[simp] theorem State.withAnswers_bcnt (b : List BusAnswer) (p : List PinAnswer) (q : List PersAnswer) (d : Nat) :
    (s.withAnswers b p q d).bcnt = s.bcnt := rfl
@[simp] theorem State.withAnswers_k (b : List BusAnswer) (p : List PinAnswer) (q : List PersAnswer) (d : Nat) :
    (s.withAnswers b p q d).k = s.k := rfl
@[simp] theorem State.withAnswers_sum (b : List BusAnswer) (p : List PinAnswer) (q : List PersAnswer) (d : Nat) :
    (s.withAnswers b p q d).sum = s.sum := rfl
@[simp] theorem State.withAnswers_vkind (b : List BusAnswer) (p : List PinAnswer) (q : List PersAnswer) (d : Nat) :
    (s.withAnswers b p q d).vkind = s.vkind := rfl
@[simp] theorem State.withAnswers_vnum (b : List BusAnswer) (p : List PinAnswer) (q : List PersAnswer) (d : Nat) :
    (s.withAnswers b p q d).vnum = s.vnum := rfl
@[simp] theorem State.withAnswers_fault (b : List BusAnswer) (p : List PinAnswer) (q : List PersAnswer) (d : Nat) :
    (s.withAnswers b p q d).fault = s.fault := rfl
@[simp] theorem State.withAnswers_faultCode (b : List BusAnswer) (p : List PinAnswer) (q : List PersAnswer) (d : Nat) :
    (s.withAnswers b p q d).faultCode = s.faultCode := rfl
@[simp] theorem State.withAnswers_faultSid (b : List BusAnswer) (p : List PinAnswer) (q : List PersAnswer) (d : Nat) :
    (s.withAnswers b p q d).faultSid = s.faultSid := rfl
@[simp] theorem State.withAnswers_cfg (b : List BusAnswer) (p : List PinAnswer) (q : List PersAnswer) (d : Nat) :
    (s.withAnswers b p q d).cfg = s.cfg := rfl
@[simp] theorem State.withAnswers_busIn (b : List BusAnswer) (p : List PinAnswer) (q : List PersAnswer) (d : Nat) :
    (s.withAnswers b p q d).busIn = b := rfl
@[simp] theorem State.withAnswers_pinIn (b : List BusAnswer) (p : List PinAnswer) (q : List PersAnswer) (d : Nat) :
    (s.withAnswers b p q d).pinIn = p := rfl
@[simp] theorem State.withAnswers_persIn (b : List BusAnswer) (p : List PinAnswer) (q : List PersAnswer) (d : Nat) :
    (s.withAnswers b p q d).persIn = q := rfl
@[simp] theorem State.withAnswers_dlyIn (b : List BusAnswer) (p : List PinAnswer) (q : List PersAnswer) (d : Nat) :
    (s.withAnswers b p q d).dlyIn = d := rfl
@[simp] theorem State.withAnswers_trace (b : List BusAnswer) (p : List PinAnswer) (q : List PersAnswer) (d : Nat) :
    (s.withAnswers b p q d).trace = s.trace := rfl

end Sys2Proof.Machine
end

