-- ==== Sys2Proof/Laws/Ops.lean ====
section
/-! SUPPORT. What each shared operation can do, said once: a call that returns, a wait, a write of an indexed
store, a raise, the probe advance, the failed batch. Later proofs cite these instead of unfolding. -/

namespace Sys2Proof.Machine

variable {s s' t : State}

/-! ## Taking an answer -/

theorem takeBus_eq_some {a : BusAnswer} (h : s.takeBus = some (a, s')) :
    ∃ rest, s.busIn = a :: rest ∧ s' = { s with busIn := rest } := by
  unfold State.takeBus at h
  split at h
  · cases h
  · next a' rest e => cases h; exact ⟨rest, e, rfl⟩

theorem takePin_eq_some {a : PinAnswer} (h : s.takePin = some (a, s')) :
    ∃ rest, s.pinIn = a :: rest ∧ s' = { s with pinIn := rest } := by
  unfold State.takePin at h
  split at h
  · cases h
  · next a' rest e => cases h; exact ⟨rest, e, rfl⟩

theorem takePers_eq_some {a : PersAnswer} (h : s.takePers = some (a, s')) :
    ∃ rest, s.persIn = a :: rest ∧ s' = { s with persIn := rest } := by
  unfold State.takePers at h
  split at h
  · cases h
  · next a' rest e => cases h; exact ⟨rest, e, rfl⟩

theorem takeDelay_eq_some (h : s.takeDelay = some s') :
    ∃ n, s.dlyIn = n + 1 ∧ s' = { s with dlyIn := n } := by
  unfold State.takeDelay at h
  split at h
  · cases h
  · next n e => cases h; exact ⟨n, e, rfl⟩

@[simp] theorem takeBus_cons {a : BusAnswer} {rest : List BusAnswer} (h : s.busIn = a :: rest) :
    s.takeBus = some (a, { s with busIn := rest }) := by simp [State.takeBus, h]

@[simp] theorem takePin_cons {a : PinAnswer} {rest : List PinAnswer} (h : s.pinIn = a :: rest) :
    s.takePin = some (a, { s with pinIn := rest }) := by simp [State.takePin, h]

@[simp] theorem takePers_cons {a : PersAnswer} {rest : List PersAnswer} (h : s.persIn = a :: rest) :
    s.takePers = some (a, { s with persIn := rest }) := by simp [State.takePers, h]

@[simp] theorem takeDelay_succ {n : Nat} (h : s.dlyIn = n + 1) :
    s.takeDelay = some { s with dlyIn := n } := by simp [State.takeDelay, h]

@[simp] theorem takeBus_nil (h : s.busIn = []) : s.takeBus = none := by simp [State.takeBus, h]

@[simp] theorem takePin_nil (h : s.pinIn = []) : s.takePin = none := by simp [State.takePin, h]

@[simp] theorem takePers_nil (h : s.persIn = []) : s.takePers = none := by simp [State.takePers, h]

@[simp] theorem takeDelay_zero (h : s.dlyIn = 0) : s.takeDelay = none := by simp [State.takeDelay, h]

/-! ## Calls: what a call that returned did -/

theorem callResetBus_eq_some {r : ResetResult} (h : callResetBus s = some (r, s')) :
    ∃ a rest, s.busIn = a :: rest ∧ r = resetResult a ∧
      s' = { s with busIn := rest, trace := s.trace ++ [.call .resetBus (.reset r)] } := by
  simp only [callResetBus, Option.map_eq_some_iff] at h
  obtain ⟨⟨a, u⟩, hu, e⟩ := h
  obtain ⟨rest, hb, rfl⟩ := takeBus_eq_some hu
  cases e
  exact ⟨a, rest, hb, rfl, rfl⟩

theorem callEnumerateNext_eq_some {cont : Bool} {r : EnumResult}
    (h : callEnumerateNext cont s = some (r, s')) :
    ∃ a rest, s.busIn = a :: rest ∧ r = enumResult a ∧
      s' = { s with busIn := rest, trace := s.trace ++ [.call (.enumerateNext cont) (.enum r)] } := by
  simp only [callEnumerateNext, Option.map_eq_some_iff] at h
  obtain ⟨⟨a, u⟩, hu, e⟩ := h
  obtain ⟨rest, hb, rfl⟩ := takeBus_eq_some hu
  cases e
  exact ⟨a, rest, hb, rfl, rfl⟩

theorem callTransaction_eq_some {cmd : Byte} {addr : Address} {r : Unit}
    (h : callTransaction cmd addr s = some (r, s')) :
    ∃ a rest, s.busIn = a :: rest ∧
      s' = { s with busIn := rest, trace := s.trace ++ [.call (.transaction cmd addr) .done] } := by
  simp only [callTransaction, Option.map_eq_some_iff] at h
  obtain ⟨⟨a, u⟩, hu, e⟩ := h
  obtain ⟨rest, hb, rfl⟩ := takeBus_eq_some hu
  cases e
  exact ⟨a, rest, hb, rfl⟩

theorem callReadByte_eq_some {b : Byte} (h : callReadByte s = some (b, s')) :
    ∃ a rest, s.busIn = a :: rest ∧ b = a.rdata ∧
      s' = { s with busIn := rest, trace := s.trace ++ [.call .readByte (.byte b)] } := by
  simp only [callReadByte, Option.map_eq_some_iff] at h
  obtain ⟨⟨a, u⟩, hu, e⟩ := h
  obtain ⟨rest, hb, rfl⟩ := takeBus_eq_some hu
  cases e
  exact ⟨a, rest, hb, rfl, rfl⟩

theorem callDigitalWrite_eq_some {level : Bool} {r : Status}
    (h : callDigitalWrite level s = some (r, s')) :
    ∃ a rest, s.pinIn = a :: rest ∧ r = writeResult a ∧
      s' = { s with pinIn := rest, trace := s.trace ++ [.call (.digitalWrite level) (.status r)] } := by
  simp only [callDigitalWrite, Option.map_eq_some_iff] at h
  obtain ⟨⟨a, u⟩, hu, e⟩ := h
  obtain ⟨rest, hb, rfl⟩ := takePin_eq_some hu
  cases e
  exact ⟨a, rest, hb, rfl, rfl⟩

theorem callAnalogRead_eq_some {ch : Channel} {r : Count} (h : callAnalogRead ch s = some (r, s')) :
    ∃ a rest, s.pinIn = a :: rest ∧ r = a.adc ∧
      s' = { s with pinIn := rest, trace := s.trace ++ [.call (.analogRead ch) (.count r)] } := by
  simp only [callAnalogRead, Option.map_eq_some_iff] at h
  obtain ⟨⟨a, u⟩, hu, e⟩ := h
  obtain ⟨rest, hb, rfl⟩ := takePin_eq_some hu
  cases e
  exact ⟨a, rest, hb, rfl, rfl⟩

theorem callInsertReading_eq_some {sid : Sid} {vkind : Vkind} {vnum : Vnum} {r : Status}
    (h : callInsertReading sid vkind vnum s = some (r, s')) :
    ∃ a rest, s.persIn = a :: rest ∧ r = insertResult a ∧
      s' = { s with
        persIn := rest, trace := s.trace ++ [.call (.insertReading sid vkind vnum) (.status r)] } := by
  simp only [callInsertReading, Option.map_eq_some_iff] at h
  obtain ⟨⟨a, u⟩, hu, e⟩ := h
  obtain ⟨rest, hb, rfl⟩ := takePers_eq_some hu
  cases e
  exact ⟨a, rest, hb, rfl, rfl⟩

theorem callDelay_eq_some {us : DelayUs} {r : Unit} (h : callDelay us s = some (r, s')) :
    ∃ n, s.dlyIn = n + 1 ∧
      s' = { s with dlyIn := n, trace := s.trace ++ [.call (.delay us) .done] } := by
  simp only [callDelay, Option.map_eq_some_iff] at h
  obtain ⟨u, hu, e⟩ := h
  obtain ⟨n, hb, rfl⟩ := takeDelay_eq_some hu
  cases e
  exact ⟨n, hb, rfl⟩

/-! ## Waiting -/

@[simp] theorem await_none {α : Type} (k : α → State → Out) : s.await none k = .next s := rfl

@[simp] theorem await_some {α : Type} (r : α) (k : α → State → Out) :
    s.await (some (r, s')) k = k r s' := rfl

/-- A wait either leaves the state as it is, or the call returned and the rest ran. -/
theorem await_eq_next {α : Type} {call : Option (α × State)} {k : α → State → Out}
    (h : s.await call k = .next t) :
    (call = none ∧ t = s) ∨ ∃ r u, call = some (r, u) ∧ k r u = .next t := by
  cases call with
  | none => exact .inl ⟨rfl, by cases h; rfl⟩
  | some p => exact .inr ⟨p.1, p.2, rfl, h⟩

/-! ## Widths -/

/-- A number that fits its register is held exactly. -/
@[simp] theorem toNat_narrow {w n : Nat} (h : n < 2 ^ w) : (narrow w n).toNat = n := by
  simp [narrow, h, Nat.mod_eq_of_lt h]

/-- The id of a probe is one above its index, where that fits. -/
theorem sidTemp_eq {k : BitVec 8} (h : k.toNat < 255) : sidTemp k = k + 1 := by
  apply BitVec.eq_of_toNat_eq
  rw [sidTemp, toNat_narrow (by omega), BitVec.toNat_add]
  simp; omega

/-! ## Indexed stores -/

theorem writeAddr_eq_some {i : BitVec 8} {a : Address} (h : s.writeAddr i a = some s') :
    i.toNat < s.addr.length ∧ s' = { s with addr := s.addr.set i.toNat a } := by
  unfold State.writeAddr at h
  split at h
  · next hi => cases h; exact ⟨hi, rfl⟩
  · cases h

theorem writeSp_eq_some {i : Nat} {b : Byte} (h : s.writeSp i b = some s') :
    ∃ hi : i < 9, s' = { s with sp := s.sp.set i b } := by
  unfold State.writeSp at h
  split at h
  · next hi => cases h; exact ⟨hi, rfl⟩
  · cases h

/-- A write of one byte leaves every other byte of `SP` as it was. -/
theorem writeSp_other {i j : Nat} {b : Byte} (h : s.writeSp i b = some s') (hj : j ≠ i) :
    s'.readSp j = s.readSp j := by
  obtain ⟨hi, rfl⟩ := writeSp_eq_some h
  simp only [State.readSp]
  by_cases hj9 : j < 9
  · simp [hj9, Ne.symm hj]
  · simp [hj9]

/-- A write of one entry leaves every other entry of `ADDR` as it was. -/
theorem writeAddr_other {i j : BitVec 8} {a : Address} (h : s.writeAddr i a = some s') (hj : j ≠ i) :
    s'.readAddr j = s.readAddr j := by
  obtain ⟨_, rfl⟩ := writeAddr_eq_some h
  have : i.toNat ≠ j.toNat := fun e => hj (BitVec.eq_of_toNat_eq e.symm)
  simp [State.readAddr, List.getElem?_set_ne this]

/-! ## Failures -/

/-- Everything `raise` can do, by kind and policy. -/
theorem raise_cases (s : State) (e : ErrorKind) (sid : Sid) (onward : State → State) :
    (e = .pinWriteError ∧ s.raise e sid onward = onward (s.emit sid (errorCode e))) ∨
    (e ≠ .pinWriteError ∧ (isFatal e = true ∨ s.pol = .halt) ∧
      s.raise e sid onward = (s.emit sid (errorCode e)).enterFault e sid) ∨
    (e ≠ .pinWriteError ∧ isFatal e = false ∧ s.pol = .recover ∧
      s.raise e sid onward = onward (s.emit sid (errorCode e))) := by
  unfold State.raise
  by_cases hp : e = .pinWriteError
  · exact .inl ⟨hp, by simp [hp]⟩
  · by_cases hf : isFatal e = true
    · exact .inr (.inl ⟨hp, .inl hf, by simp [hp, hf]⟩)
    · cases s.pol
      · exact .inr (.inl ⟨hp, .inr rfl, by simp [hp, hf]⟩)
      · exact .inr (.inr ⟨hp, by simpa using hf, rfl, by simp [hp, hf]⟩)

/-- A fatal kind enters `FAULT` under either policy. -/
theorem raiseFatal_eq {e : ErrorKind} (h : isFatal e = true) (s : State) :
    s.raiseFatal e = (s.emit 0 (errorCode e)).enterFault e 0 := by
  rcases raise_cases s e sidNone id with ⟨rfl, _⟩ | ⟨_, _, h'⟩ | ⟨_, h', _⟩
  · cases h
  · exact h'
  · rw [h] at h'; cases h'

/-- Everything a failed batch can do, by policy. -/
theorem batchFailure_cases (s : State) :
    (s.pol = .halt ∧
      s.batchFailure = ((s.emit (sidDust s.cfg) 5).emit (sidDust s.cfg) 7).enterFault
        .batchCollectionError (sidDust s.cfg)) ∨
    (s.pol = .recover ∧
      s.batchFailure = ((s.emit (sidDust s.cfg) 5).emit (sidDust s.cfg) 7).goto stReadHumidity 0) := by
  unfold State.batchFailure
  cases h : s.pol
  · exact .inl ⟨rfl, by simp [State.raise, isFatal, h, errorCode]⟩
  · exact .inr ⟨rfl, by simp [State.raise, isFatal, h, errorCode]⟩

/-- The probe advance: to the next probe, or past the last one to the dust leg. -/
theorem advance_cases (s : State) :
    (s.pidx.toNat + 1 < s.cfg.nProbes ∧
      s.advance = { s with pidx := BitVec.ofNat 8 (s.pidx.toNat + 1), st := 3, ph := 0 }) ∨
    (s.cfg.nProbes ≤ s.pidx.toNat + 1 ∧
      s.advance = { s with pidx := 0, st := 6, ph := 0, k := 0, sum := 0 }) := by
  unfold State.advance
  by_cases h : s.pidx.toNat + 1 < s.cfg.nProbes
  · exact .inl ⟨h, by simp [h, stStartConversion]⟩
  · exact .inr ⟨by omega, by simp [h, State.enterReadDust, stReadDust]⟩

end Sys2Proof.Machine
end

