-- ==== Sys2Proof/Laws/Decode.lean ====
section
/-! SUPPORT. The decoder of the sequencing word as a table: which word selects which micro-operation, and what a
step can do. -/

namespace Sys2Proof.Machine

/-- The sequencing word selects a micro-operation exactly when the pair stands in the table of R101. -/
theorem decodeSeq_eq_ok {w : SeqWord} {i : Instr} (h : decodeSeq w = .ok i) : (w, i) ∈ seqTable := by
  unfold decodeSeq at h
  split at h
  · next row hf =>
    cases h
    have hw := List.find?_some hf
    have hm := List.mem_of_find?_eq_some hf
    have : row.1 = w := by simpa using hw
    rw [← this]; exact hm
  · cases h

@[simp] theorem seqSt_packSeq (a b : BitVec 4) : seqSt (packSeq a b) = a :=
  BitVec.extractLsb'_append_eq_left

@[simp] theorem seqPh_packSeq (a b : BitVec 4) : seqPh (packSeq a b) = b :=
  BitVec.extractLsb'_append_eq_right

@[simp] theorem valueKind_packValue (a : Vkind) (b : Vnum) : valueKind (packValue a b) = a :=
  BitVec.extractLsb'_append_eq_left

@[simp] theorem valueNum_packValue (a : Vkind) (b : Vnum) : valueNum (packValue a b) = b :=
  BitVec.extractLsb'_append_eq_right

/-- `st` and `ph` are the two halves of the sequencing word. -/
theorem packSeq_inj {a b c d : BitVec 4} (h : packSeq a b = packSeq c d) : a = c ∧ b = d :=
  ⟨by simpa using congrArg seqSt h, by simpa using congrArg seqPh h⟩

/-- The micro-operations by state and phase (R100, R101). -/
def phaseTable : List (BitVec 4 × BitVec 4 × Instr) :=
  [ (0, 0, .initReset), (1, 0, .initEnum), (2, 0, .idle), (3, 0, .startConversion),
    (4, 0, .awaitConversion), (5, 0, .rtCmd), (5, 1, .rtByte), (5, 2, .rtCheck),
    (5, 3, .rtPersist), (6, 0, .dsLedOn), (6, 1, .dsHoldRise), (6, 2, .dsSample),
    (6, 3, .dsHoldPulse), (6, 4, .dsLedOff), (6, 5, .dsHoldSettle), (6, 6, .dsConvert),
    (6, 7, .dsPersist), (7, 0, .hmSample), (7, 1, .hmPersist), (8, 0, .sleep),
    (9, 0, .fault) ]

/-- The state and phase of a state whose sequencing word selects a micro-operation. -/
theorem phase_of_decode {s : State} {i : Instr} (h : decode (.seq s.seqWord) = .ok i) :
    (s.st, s.ph, i) ∈ phaseTable := by
  have hm := decodeSeq_eq_ok h
  have key : ∀ row ∈ seqTable, (seqSt row.1, seqPh row.1, row.2) ∈ phaseTable := by decide
  simpa [State.seqWord] using key _ hm

/-- A step is the meaning of the decoded micro-operation, or the entry to `FAULT` of a reserved word. -/
theorem step_cases (s : State) :
    (∃ i, decode (.seq s.seqWord) = .ok i ∧ step s = exec i s) ∨
    (∃ e, decode (.seq s.seqWord) = .error e ∧ step s = .next s.reservedWord) := by
  unfold step
  cases h : decode (.seq s.seqWord) with
  | ok i => exact .inl ⟨i, rfl, rfl⟩
  | error e => exact .inr ⟨e, rfl, rfl⟩

end Sys2Proof.Machine
end

