-- ==== Sys2Proof/Laws/PerInstr.lean ====
section
/-! SUPPORT. Laws said once for each instruction: the encoder writes a word of the instruction's own row of
spec/opcode_table.json, in its format and with its opcode bits (R128). -/

namespace Sys2Proof.Laws.EncodesToItsRow

/-- The encoding of `i` is in the format of its row, and its opcode bits match the row's pattern. -/
def Statement (i : Instr) : Prop := i.row.admits (encode i) = true

theorem initReset : Statement .initReset := rfl
theorem initEnum : Statement .initEnum := rfl
theorem idle : Statement .idle := rfl
theorem startConversion : Statement .startConversion := rfl
theorem awaitConversion : Statement .awaitConversion := rfl
theorem rtCmd : Statement .rtCmd := rfl
theorem rtByte : Statement .rtByte := rfl
theorem rtCheck : Statement .rtCheck := rfl
theorem rtPersist : Statement .rtPersist := rfl
theorem dsLedOn : Statement .dsLedOn := rfl
theorem dsHoldRise : Statement .dsHoldRise := rfl
theorem dsSample : Statement .dsSample := rfl
theorem dsHoldPulse : Statement .dsHoldPulse := rfl
theorem dsLedOff : Statement .dsLedOff := rfl
theorem dsHoldSettle : Statement .dsHoldSettle := rfl
theorem dsConvert : Statement .dsConvert := rfl
theorem dsPersist : Statement .dsPersist := rfl
theorem hmSample : Statement .hmSample := rfl
theorem hmPersist : Statement .hmPersist := rfl
theorem sleep : Statement .sleep := rfl
theorem fault : Statement .fault := rfl
theorem resetBus : Statement .resetBus := rfl
theorem enumerateNext (cont : Bool) : Statement (.enumerateNext cont) := by
  simp [Statement, Instr.row, encode, Row.admits, CodeWord.format, CodeWord.opcode]
theorem transaction (cmd : Byte) (addr : Address) : Statement (.transaction cmd addr) := by
  simp [Statement, Instr.row, encode, Row.admits, CodeWord.format, CodeWord.opcode]
theorem readByte : Statement .readByte := rfl
theorem digitalWrite (level : Bool) : Statement (.digitalWrite level) := by
  simp [Statement, Instr.row, encode, Row.admits, CodeWord.format, CodeWord.opcode]
theorem analogRead (ch : Channel) : Statement (.analogRead ch) := by
  simp [Statement, Instr.row, encode, Row.admits, CodeWord.format, CodeWord.opcode]
theorem insertReading (sid : Sid) (vkind : Vkind) (vnum : Vnum) : Statement (.insertReading sid vkind vnum) := by
  simp [Statement, Instr.row, encode, Row.admits, CodeWord.format, CodeWord.opcode]
theorem delay (us : DelayUs) : Statement (.delay us) := by
  simp [Statement, Instr.row, encode, Row.admits, CodeWord.format, CodeWord.opcode]
theorem diag (sid : Sid) (kind : BitVec 4) : Statement (.diag sid kind) := by
  simp [Statement, Instr.row, encode, Row.admits, CodeWord.format, CodeWord.opcode]

end Sys2Proof.Laws.EncodesToItsRow
end

