-- ==== Sys2Proof/Laws/Step.lean ====
section
/-! SUPPORT. What a step can do, said once: the transition table of `43_controller.md` R225 as an inductive
relation, one constructor for each of its rows (a row with two policies is two), with the whole next state
written out; and the theorem that every step is one of them. -/

namespace Sys2Proof.Machine

/-- The transitions of R225. `waits` is the call not answered (R62), `reserved` the word no run reaches (R124). -/
inductive Transition (s : State) : State → Prop where
  | waits {req : Request} : callOf s = some req → answered req s = false → Transition s s
  | reserved {e : DecodeError} : decode (.seq s.seqWord) = .error e → Transition s s.reservedWord
  | initResetOk {a : BusAnswer} {rest : List BusAnswer} :
      s.st = 0 → s.ph = 0 → s.busIn = a :: rest → a.status = 0 →
      Transition s { s with
        busIn := rest,
        trace := s.trace ++ [.call .resetBus (.reset .ok)],
        st := 1 }
  | initResetNoDevices {a : BusAnswer} {rest : List BusAnswer} :
      s.st = 0 → s.ph = 0 → s.busIn = a :: rest → a.status = 1 →
      Transition s { s with
        busIn := rest,
        trace := s.trace ++ [.call .resetBus (.reset .noDevices), .diag 0 1],
        fault := true,
        faultCode := 1,
        faultSid := 0,
        st := 9,
        ph := 0 }
  | initResetDataError {a : BusAnswer} {rest : List BusAnswer} :
      s.st = 0 → s.ph = 0 → s.busIn = a :: rest → a.status ≠ 0 → a.status ≠ 1 →
      Transition s { s with
        busIn := rest,
        trace := s.trace ++ [.call .resetBus (.reset .dataError), .diag 0 3],
        fault := true,
        faultCode := 3,
        faultSid := 0,
        st := 9,
        ph := 0 }
  | initEnumMore {a : BusAnswer} {rest : List BusAnswer} :
      s.st = 1 → s.ph = 0 → s.busIn = a :: rest → a.status = 0 → s.eidx.toNat < s.addr.length →
        s.eidx.toNat + 1 ≠ s.cfg.nProbes →
      Transition s { s with
        busIn := rest,
        trace := s.trace ++ [.call (.enumerateNext (s.eidx != 0)) (.enum (.addr a.raddr))],
        addr := s.addr.set s.eidx.toNat a.raddr,
        eidx := narrow 8 (s.eidx.toNat + 1) }
  | initEnumLast {a : BusAnswer} {rest : List BusAnswer} :
      s.st = 1 → s.ph = 0 → s.busIn = a :: rest → a.status = 0 → s.eidx.toNat < s.addr.length →
        s.eidx.toNat + 1 = s.cfg.nProbes →
      Transition s { s with
        busIn := rest,
        trace := s.trace ++ [.call (.enumerateNext (s.eidx != 0)) (.enum (.addr a.raddr))],
        addr := s.addr.set s.eidx.toNat a.raddr,
        eidx := narrow 8 (s.eidx.toNat + 1),
        st := 2 }
  | initEnumNone {a : BusAnswer} {rest : List BusAnswer} :
      s.st = 1 → s.ph = 0 → s.busIn = a :: rest → a.status ≠ 0 → s.eidx = 0 →
      Transition s { s with
        busIn := rest,
        trace := s.trace ++ [.call (.enumerateNext (s.eidx != 0)) (.enum .noDevice), .diag 0 1],
        fault := true,
        faultCode := 1,
        faultSid := 0,
        st := 9,
        ph := 0 }
  | initEnumFew {a : BusAnswer} {rest : List BusAnswer} :
      s.st = 1 → s.ph = 0 → s.busIn = a :: rest → a.status ≠ 0 → s.eidx ≠ 0 →
      Transition s { s with
        busIn := rest,
        trace := s.trace ++ [.call (.enumerateNext (s.eidx != 0)) (.enum .noDevice), .diag 0 2],
        fault := true,
        faultCode := 2,
        faultSid := 0,
        st := 9,
        ph := 0 }
  | idle :
      s.st = 2 → s.ph = 0 →
      Transition s { s with
        st := 3 }
  | startConversion {a : BusAnswer} {rest : List BusAnswer} {adr : Address} :
      s.st = 3 → s.ph = 0 → s.busIn = a :: rest → s.addr[s.pidx.toNat]? = some adr →
      Transition s { s with
        busIn := rest,
        trace := s.trace ++ [.call (.transaction s.cfg.cmdConvert adr) .done],
        st := 4 }
  | awaitConversion {n : Nat} :
      s.st = 4 → s.ph = 0 → s.dlyIn = n + 1 →
      Transition s { s with
        dlyIn := n,
        trace := s.trace ++ [.call (.delay 1000000) .done],
        st := 5,
        ph := 0 }
  | rtCmd {a : BusAnswer} {rest : List BusAnswer} {adr : Address} :
      s.st = 5 → s.ph = 0 → s.busIn = a :: rest → s.addr[s.pidx.toNat]? = some adr →
      Transition s { s with
        busIn := rest,
        trace := s.trace ++ [.call (.transaction s.cfg.cmdReadScratchpad adr) .done],
        bcnt := 0,
        ph := 1 }
  | rtByteMore {a : BusAnswer} {rest : List BusAnswer} (hb : s.bcnt.toNat < 9) :
      s.st = 5 → s.ph = 1 → s.busIn = a :: rest → s.bcnt.toNat + 1 ≠ 9 →
      Transition s { s with
        busIn := rest,
        trace := s.trace ++ [.call .readByte (.byte a.rdata)],
        sp := s.sp.set s.bcnt.toNat a.rdata hb,
        bcnt := BitVec.ofNat 4 (s.bcnt.toNat + 1) }
  | rtByteLast {a : BusAnswer} {rest : List BusAnswer} (hb : s.bcnt.toNat < 9) :
      s.st = 5 → s.ph = 1 → s.busIn = a :: rest → s.bcnt.toNat + 1 = 9 →
      Transition s { s with
        busIn := rest,
        trace := s.trace ++ [.call .readByte (.byte a.rdata)],
        sp := s.sp.set s.bcnt.toNat a.rdata hb,
        bcnt := BitVec.ofNat 4 (s.bcnt.toNat + 1),
        ph := 2 }
  | rtCheckMatch :
      s.st = 5 → s.ph = 2 → crcMatch s = true →
      Transition s { s with
        vkind := 1,
        vnum := vnumOf (decodeRaw s.sp[0] s.sp[1]),
        ph := 3 }
  | rtCheckHalt :
      s.st = 5 → s.ph = 2 → crcMatch s = false → s.pol = .halt →
      Transition s { s with
        trace := s.trace ++ [.diag (sidTemp s.pidx) 6],
        fault := true,
        faultCode := 6,
        faultSid := sidTemp s.pidx,
        st := 9,
        ph := 0 }
  | rtCheckRecover :
      s.st = 5 → s.ph = 2 → crcMatch s = false → s.pol = .recover →
      Transition s (State.advance { s with
        trace := s.trace ++ [.diag (sidTemp s.pidx) 6] })
  | rtPersistOk {a : PersAnswer} {rest : List PersAnswer} :
      s.st = 5 → s.ph = 3 → s.persIn = a :: rest → a.err = false →
      Transition s (State.advance { s with
        persIn := rest,
        trace := s.trace ++ [.call (.insertReading (sidTemp s.pidx) s.vkind s.vnum) (.status .ok)] })
  | rtPersistHalt {a : PersAnswer} {rest : List PersAnswer} :
      s.st = 5 → s.ph = 3 → s.persIn = a :: rest → a.err = true → s.pol = .halt →
      Transition s { s with
        persIn := rest,
        trace := s.trace ++
          [.call (.insertReading (sidTemp s.pidx) s.vkind s.vnum) (.status .error), .diag (sidTemp s.pidx) 8],
        fault := true,
        faultCode := 8,
        faultSid := sidTemp s.pidx,
        st := 9,
        ph := 0 }
  | rtPersistRecover {a : PersAnswer} {rest : List PersAnswer} :
      s.st = 5 → s.ph = 3 → s.persIn = a :: rest → a.err = true → s.pol = .recover →
      Transition s (State.advance { s with
        persIn := rest,
        trace := s.trace ++
          [.call (.insertReading (sidTemp s.pidx) s.vkind s.vnum) (.status .error), .diag (sidTemp s.pidx) 8] })
  | dsLedOnOk {a : PinAnswer} {rest : List PinAnswer} :
      s.st = 6 → s.ph = 0 → s.pinIn = a :: rest → a.err = false →
      Transition s { s with
        pinIn := rest,
        trace := s.trace ++ [.call (.digitalWrite true) (.status .ok)],
        ph := 1 }
  | dsLedOnHalt {a : PinAnswer} {rest : List PinAnswer} :
      s.st = 6 → s.ph = 0 → s.pinIn = a :: rest → a.err = true → s.pol = .halt →
      Transition s { s with
        pinIn := rest,
        trace := s.trace ++
          [.call (.digitalWrite true) (.status .error), .diag (sidDust s.cfg) 5, .diag (sidDust s.cfg) 7],
        fault := true,
        faultCode := 7,
        faultSid := sidDust s.cfg,
        st := 9,
        ph := 0 }
  | dsLedOnRecover {a : PinAnswer} {rest : List PinAnswer} :
      s.st = 6 → s.ph = 0 → s.pinIn = a :: rest → a.err = true → s.pol = .recover →
      Transition s { s with
        pinIn := rest,
        trace := s.trace ++
          [.call (.digitalWrite true) (.status .error), .diag (sidDust s.cfg) 5, .diag (sidDust s.cfg) 7],
        st := 7,
        ph := 0 }
  | dsHoldRise {n : Nat} :
      s.st = 6 → s.ph = 1 → s.dlyIn = n + 1 →
      Transition s { s with
        dlyIn := n,
        trace := s.trace ++ [.call (.delay 280) .done],
        ph := 2 }
  | dsSample {a : PinAnswer} {rest : List PinAnswer} :
      s.st = 6 → s.ph = 2 → s.pinIn = a :: rest →
      Transition s { s with
        pinIn := rest,
        trace := s.trace ++ [.call (.analogRead .dust) (.count a.adc)],
        sum := narrow 14 (s.sum.toNat + a.adc.toNat),
        ph := 3 }
  | dsHoldPulse {n : Nat} :
      s.st = 6 → s.ph = 3 → s.dlyIn = n + 1 →
      Transition s { s with
        dlyIn := n,
        trace := s.trace ++ [.call (.delay 40) .done],
        ph := 4 }
  | dsLedOffOk {a : PinAnswer} {rest : List PinAnswer} :
      s.st = 6 → s.ph = 4 → s.pinIn = a :: rest → a.err = false →
      Transition s { s with
        pinIn := rest,
        trace := s.trace ++ [.call (.digitalWrite false) (.status .ok)],
        ph := 5 }
  | dsLedOffHalt {a : PinAnswer} {rest : List PinAnswer} :
      s.st = 6 → s.ph = 4 → s.pinIn = a :: rest → a.err = true → s.pol = .halt →
      Transition s { s with
        pinIn := rest,
        trace := s.trace ++
          [.call (.digitalWrite false) (.status .error), .diag (sidDust s.cfg) 5, .diag (sidDust s.cfg) 7],
        fault := true,
        faultCode := 7,
        faultSid := sidDust s.cfg,
        st := 9,
        ph := 0 }
  | dsLedOffRecover {a : PinAnswer} {rest : List PinAnswer} :
      s.st = 6 → s.ph = 4 → s.pinIn = a :: rest → a.err = true → s.pol = .recover →
      Transition s { s with
        pinIn := rest,
        trace := s.trace ++
          [.call (.digitalWrite false) (.status .error), .diag (sidDust s.cfg) 5, .diag (sidDust s.cfg) 7],
        st := 7,
        ph := 0 }
  | dsHoldSettleMore {n : Nat} :
      s.st = 6 → s.ph = 5 → s.dlyIn = n + 1 → s.k.toNat + 1 ≠ 16 →
      Transition s { s with
        dlyIn := n,
        trace := s.trace ++ [.call (.delay 9680) .done],
        k := narrow 5 (s.k.toNat + 1),
        ph := 0 }
  | dsHoldSettleLast {n : Nat} :
      s.st = 6 → s.ph = 5 → s.dlyIn = n + 1 → s.k.toNat + 1 = 16 →
      Transition s { s with
        dlyIn := n,
        trace := s.trace ++ [.call (.delay 9680) .done],
        k := narrow 5 (s.k.toNat + 1),
        ph := 6 }
  | dsConvert :
      s.st = 6 → s.ph = 6 →
      Transition s { s with
        vkind := 2,
        vnum := vnumOf (dustNum s.sum.toNat),
        ph := 7 }
  | dsPersistOk {a : PersAnswer} {rest : List PersAnswer} :
      s.st = 6 → s.ph = 7 → s.persIn = a :: rest → a.err = false →
      Transition s { s with
        persIn := rest,
        trace := s.trace ++ [.call (.insertReading (sidDust s.cfg) s.vkind s.vnum) (.status .ok)],
        st := 7,
        ph := 0 }
  | dsPersistHalt {a : PersAnswer} {rest : List PersAnswer} :
      s.st = 6 → s.ph = 7 → s.persIn = a :: rest → a.err = true → s.pol = .halt →
      Transition s { s with
        persIn := rest,
        trace := s.trace ++
          [.call (.insertReading (sidDust s.cfg) s.vkind s.vnum) (.status .error), .diag (sidDust s.cfg) 8],
        fault := true,
        faultCode := 8,
        faultSid := sidDust s.cfg,
        st := 9,
        ph := 0 }
  | dsPersistRecover {a : PersAnswer} {rest : List PersAnswer} :
      s.st = 6 → s.ph = 7 → s.persIn = a :: rest → a.err = true → s.pol = .recover →
      Transition s { s with
        persIn := rest,
        trace := s.trace ++
          [.call (.insertReading (sidDust s.cfg) s.vkind s.vnum) (.status .error), .diag (sidDust s.cfg) 8],
        st := 7,
        ph := 0 }
  | hmSample {a : PinAnswer} {rest : List PinAnswer} :
      s.st = 7 → s.ph = 0 → s.pinIn = a :: rest →
      Transition s { s with
        pinIn := rest,
        trace := s.trace ++ [.call (.analogRead .hum) (.count a.adc)],
        vkind := 3,
        vnum := vnumOf (humNum a.adc.toNat),
        ph := 1 }
  | hmPersistOk {a : PersAnswer} {rest : List PersAnswer} :
      s.st = 7 → s.ph = 1 → s.persIn = a :: rest → a.err = false →
      Transition s { s with
        persIn := rest,
        trace := s.trace ++ [.call (.insertReading (sidHum s.cfg) s.vkind s.vnum) (.status .ok)],
        st := 8,
        ph := 0 }
  | hmPersistHalt {a : PersAnswer} {rest : List PersAnswer} :
      s.st = 7 → s.ph = 1 → s.persIn = a :: rest → a.err = true → s.pol = .halt →
      Transition s { s with
        persIn := rest,
        trace := s.trace ++
          [.call (.insertReading (sidHum s.cfg) s.vkind s.vnum) (.status .error), .diag (sidHum s.cfg) 8],
        fault := true,
        faultCode := 8,
        faultSid := sidHum s.cfg,
        st := 9,
        ph := 0 }
  | hmPersistRecover {a : PersAnswer} {rest : List PersAnswer} :
      s.st = 7 → s.ph = 1 → s.persIn = a :: rest → a.err = true → s.pol = .recover →
      Transition s { s with
        persIn := rest,
        trace := s.trace ++
          [.call (.insertReading (sidHum s.cfg) s.vkind s.vnum) (.status .error), .diag (sidHum s.cfg) 8],
        st := 8,
        ph := 0 }
  | sleep {n : Nat} :
      s.st = 8 → s.ph = 0 → s.dlyIn = n + 1 →
      Transition s { s with
        dlyIn := n,
        trace := s.trace ++ [.call (.delay 60000000) .done],
        st := 3,
        ph := 0 }
  | fault :
      s.st = 9 → s.ph = 0 → Transition s s

/-- The pending call of a state whose word selects `i`. -/
theorem callOf_eq {s : State} {i : Instr} (h : decode (.seq s.seqWord) = .ok i) :
    callOf s = callOfInstr i s := by simp [callOf, h]

theorem callResetBus_none {s : State} (h : callResetBus s = none) : answered .resetBus s = false := by
  cases e : s.busIn <;> simp [callResetBus, answered, State.takeBus, e] at h ⊢

theorem callEnumerateNext_none {s : State} {cont : Bool} (h : callEnumerateNext cont s = none) :
    answered (.enumerateNext cont) s = false := by
  cases e : s.busIn <;> simp [callEnumerateNext, answered, State.takeBus, e] at h ⊢

theorem callTransaction_none {s : State} {cmd : Byte} {adr : Address}
    (h : callTransaction cmd adr s = none) : answered (.transaction cmd adr) s = false := by
  cases e : s.busIn <;> simp [callTransaction, answered, State.takeBus, e] at h ⊢

theorem callReadByte_none {s : State} (h : callReadByte s = none) : answered .readByte s = false := by
  cases e : s.busIn <;> simp [callReadByte, answered, State.takeBus, e] at h ⊢

theorem callDigitalWrite_none {s : State} {level : Bool} (h : callDigitalWrite level s = none) :
    answered (.digitalWrite level) s = false := by
  cases e : s.pinIn <;> simp [callDigitalWrite, answered, State.takePin, e] at h ⊢

theorem callAnalogRead_none {s : State} {ch : Channel} (h : callAnalogRead ch s = none) :
    answered (.analogRead ch) s = false := by
  cases e : s.pinIn <;> simp [callAnalogRead, answered, State.takePin, e] at h ⊢

theorem callInsertReading_none {s : State} {sid : Sid} {vkind : Vkind} {vnum : Vnum}
    (h : callInsertReading sid vkind vnum s = none) :
    answered (.insertReading sid vkind vnum) s = false := by
  cases e : s.persIn <;> simp [callInsertReading, answered, State.takePers, e] at h ⊢

theorem callDelay_none {s : State} {us : DelayUs} (h : callDelay us s = none) :
    answered (.delay us) s = false := by
  cases e : s.dlyIn <;> simp [callDelay, answered, State.takeDelay, e] at h ⊢

/-- A raise of a kind the policy decides, with the states written out. -/
theorem raise_policy {s : State} {e : ErrorKind} (h1 : e ≠ .pinWriteError) (h2 : isFatal e = false)
    (sid : Sid) (onward : State → State) :
    (s.pol = .halt ∧ s.raise e sid onward = { s with
      trace := s.trace ++ [.diag sid (errorCode e)], fault := true, faultCode := errorCode e,
      faultSid := sid, st := 9, ph := 0 }) ∨
    (s.pol = .recover ∧
      s.raise e sid onward = onward { s with trace := s.trace ++ [.diag sid (errorCode e)] }) := by
  rcases raise_cases s e sid onward with ⟨h, _⟩ | ⟨_, h | h, h'⟩ | ⟨_, _, h, h'⟩
  · exact absurd h h1
  · rw [h2] at h; cases h
  · exact .inl ⟨h, h'⟩
  · exact .inr ⟨h, h'⟩

/-- A raise of a fatal kind, with the state written out. -/
theorem raiseFatal_writes {s : State} {e : ErrorKind} (h : isFatal e = true) :
    s.raiseFatal e = { s with
      trace := s.trace ++ [.diag 0 (errorCode e)], fault := true, faultCode := errorCode e,
      faultSid := 0, st := 9, ph := 0 } := raiseFatal_eq h s

/-- Every step is a transition of the table. -/
theorem transition_of_step {s t : State} (h : step s = .next t) : Transition s t := by
  rcases step_cases s with ⟨i, hd, hs⟩ | ⟨e, hd, hs⟩
  · rw [hs] at h
    have hc := callOf_eq hd
    have hm := phase_of_decode hd
    simp only [phaseTable, List.mem_cons, Prod.mk.injEq, List.not_mem_nil, or_false] at hm
    rcases hm with ⟨h1, h2, rfl⟩ | ⟨h1, h2, rfl⟩ | ⟨h1, h2, rfl⟩ | ⟨h1, h2, rfl⟩ | ⟨h1, h2, rfl⟩ |
      ⟨h1, h2, rfl⟩ | ⟨h1, h2, rfl⟩ | ⟨h1, h2, rfl⟩ | ⟨h1, h2, rfl⟩ | ⟨h1, h2, rfl⟩ | ⟨h1, h2, rfl⟩ |
      ⟨h1, h2, rfl⟩ | ⟨h1, h2, rfl⟩ | ⟨h1, h2, rfl⟩ | ⟨h1, h2, rfl⟩ | ⟨h1, h2, rfl⟩ | ⟨h1, h2, rfl⟩ |
      ⟨h1, h2, rfl⟩ | ⟨h1, h2, rfl⟩ | ⟨h1, h2, rfl⟩ | ⟨h1, h2, rfl⟩ <;> simp only [exec] at h
    · -- INIT_RESET
      rcases await_eq_next h with ⟨hn, rfl⟩ | ⟨r, u, hu, h⟩
      · exact .waits hc (callResetBus_none hn)
      obtain ⟨a, rest, hb, rfl, rfl⟩ := callResetBus_eq_some hu
      by_cases s0 : a.status = 0
      · simp only [resetResult, s0, if_true] at h; cases h
        exact .initResetOk h1 h2 hb s0
      · by_cases s1 : a.status = 1
        · rw [show resetResult a = .noDevices by simp [resetResult, s1]] at h
          cases h; rw [raiseFatal_writes rfl]
          simpa [errorCode] using Transition.initResetNoDevices h1 h2 hb s1
        · rw [show resetResult a = .dataError by rw [resetResult, if_neg s0, if_neg s1]] at h
          cases h; rw [raiseFatal_writes rfl]
          simpa [errorCode] using Transition.initResetDataError h1 h2 hb s0 s1
    · -- INIT_ENUM
      rcases await_eq_next h with ⟨hn, rfl⟩ | ⟨r, u, hu, h⟩
      · exact .waits hc (callEnumerateNext_none hn)
      obtain ⟨a, rest, hb, rfl, rfl⟩ := callEnumerateNext_eq_some hu
      by_cases s0 : a.status = 0
      · rw [show enumResult a = .addr a.raddr by simp [enumResult, s0]] at h
        dsimp only at h
        split at h
        · cases h
        · next v hv =>
          obtain ⟨hi, rfl⟩ := writeAddr_eq_some hv
          by_cases hl : s.eidx.toNat + 1 = s.cfg.nProbes
          · rw [if_pos hl] at h; cases h
            exact .initEnumLast h1 h2 hb s0 hi hl
          · rw [if_neg hl] at h; cases h
            exact .initEnumMore h1 h2 hb s0 hi hl
      · rw [show enumResult a = .noDevice by rw [enumResult, if_neg s0]] at h
        dsimp only at h
        by_cases e0 : s.eidx = 0
        · rw [if_pos e0] at h; cases h; rw [raiseFatal_writes rfl]
          simpa [errorCode] using Transition.initEnumNone h1 h2 hb s0 e0
        · rw [if_neg e0] at h; cases h; rw [raiseFatal_writes rfl]
          simpa [errorCode] using Transition.initEnumFew h1 h2 hb s0 e0
    · -- IDLE
      cases h; exact .idle h1 h2
    · -- START_CONVERSION
      unfold execStartConversion at h
      revert h
      cases hr : s.readAddr s.pidx with
      | none => intro h; cases h
      | some adr =>
        intro h
        rcases await_eq_next h with ⟨hn, rfl⟩ | ⟨r, u, hu, h⟩
        · refine .waits (hc.trans ?_) (callTransaction_none hn)
          simp only [callOfInstr, hr]; rfl
        obtain ⟨a, rest, hb, rfl⟩ := callTransaction_eq_some hu
        cases h; exact .startConversion h1 h2 hb hr
    · -- AWAIT_CONVERSION
      rcases await_eq_next h with ⟨hn, rfl⟩ | ⟨r, u, hu, h⟩
      · exact .waits hc (callDelay_none hn)
      obtain ⟨n, hb, rfl⟩ := callDelay_eq_some hu
      cases h; exact .awaitConversion h1 h2 hb
    · -- RT_CMD
      unfold execRtCmd at h
      revert h
      cases hr : s.readAddr s.pidx with
      | none => intro h; cases h
      | some adr =>
        intro h
        rcases await_eq_next h with ⟨hn, rfl⟩ | ⟨r, u, hu, h⟩
        · refine .waits (hc.trans ?_) (callTransaction_none hn)
          simp only [callOfInstr, hr]; rfl
        obtain ⟨a, rest, hb, rfl⟩ := callTransaction_eq_some hu
        cases h; exact .rtCmd h1 h2 hb hr
    · -- RT_BYTE
      rcases await_eq_next h with ⟨hn, rfl⟩ | ⟨r, u, hu, h⟩
      · exact .waits hc (callReadByte_none hn)
      obtain ⟨a, rest, hb, rfl, rfl⟩ := callReadByte_eq_some hu
      dsimp only at h
      split at h
      · cases h
      · next v hv =>
        obtain ⟨hi, rfl⟩ := writeSp_eq_some hv
        dsimp only at h
        split at h <;> rename_i hl <;> cases h
        · exact .rtByteLast hi h1 h2 hb hl
        · exact .rtByteMore hi h1 h2 hb hl
    · -- RT_CHECK
      by_cases hm : crcMatch s = true
      · simp only [execRtCheck, hm, if_true] at h; cases h
        exact .rtCheckMatch h1 h2 hm
      · simp only [execRtCheck, hm] at h; cases h
        have hm : crcMatch s = false := by simpa using hm
        rcases raise_policy (s := s) (e := .crcMismatch) nofun rfl (sidTemp s.pidx) State.advance with
          ⟨hp, he⟩ | ⟨hp, he⟩ <;> rw [he]
        · exact .rtCheckHalt h1 h2 hm hp
        · exact .rtCheckRecover h1 h2 hm hp
    · -- RT_PERSIST
      rcases await_eq_next h with ⟨hn, rfl⟩ | ⟨r, u, hu, h⟩
      · exact .waits hc (callInsertReading_none hn)
      obtain ⟨a, rest, hb, rfl, rfl⟩ := callInsertReading_eq_some hu
      cases he : a.err
      · rw [show insertResult a = .ok by simp [insertResult, he]] at h
        cases h; exact .rtPersistOk h1 h2 hb he
      · rw [show insertResult a = .error by simp [insertResult, he]] at h
        cases h
        rcases raise_policy (s := { s with
              persIn := rest
              trace := s.trace ++ [.call (.insertReading (sidTemp s.pidx) s.vkind s.vnum) (.status .error)] })
            (e := .persistenceError) nofun rfl (sidTemp s.pidx) State.advance with ⟨hp, hr⟩ | ⟨hp, hr⟩ <;> rw [hr]
        · simpa [errorCode] using Transition.rtPersistHalt h1 h2 hb he hp
        · simpa [errorCode] using Transition.rtPersistRecover h1 h2 hb he hp
    · -- DS_LED_ON
      rcases await_eq_next h with ⟨hn, rfl⟩ | ⟨r, u, hu, h⟩
      · exact .waits hc (callDigitalWrite_none hn)
      obtain ⟨a, rest, hb, rfl, rfl⟩ := callDigitalWrite_eq_some hu
      cases he : a.err
      · rw [show writeResult a = .ok by simp [writeResult, he]] at h
        cases h; exact .dsLedOnOk h1 h2 hb he
      · rw [show writeResult a = .error by simp [writeResult, he]] at h
        cases h
        rcases batchFailure_cases { s with
            pinIn := rest
            trace := s.trace ++ [.call (.digitalWrite true) (.status .error)] } with
          ⟨hp, hr⟩ | ⟨hp, hr⟩ <;> rw [hr]
        · simpa [State.emit, State.enterFault, errorCode, stFault] using Transition.dsLedOnHalt h1 h2 hb he hp
        · simpa [State.emit, State.goto, stReadHumidity] using Transition.dsLedOnRecover h1 h2 hb he hp
    · -- DS_HOLD_RISE
      rcases await_eq_next h with ⟨hn, rfl⟩ | ⟨r, u, hu, h⟩
      · exact .waits hc (callDelay_none hn)
      obtain ⟨n, hb, rfl⟩ := callDelay_eq_some hu
      cases h; exact .dsHoldRise h1 h2 hb
    · -- DS_SAMPLE
      rcases await_eq_next h with ⟨hn, rfl⟩ | ⟨r, u, hu, h⟩
      · exact .waits hc (callAnalogRead_none hn)
      obtain ⟨a, rest, hb, rfl, rfl⟩ := callAnalogRead_eq_some hu
      cases h; exact .dsSample h1 h2 hb
    · -- DS_HOLD_PULSE
      rcases await_eq_next h with ⟨hn, rfl⟩ | ⟨r, u, hu, h⟩
      · exact .waits hc (callDelay_none hn)
      obtain ⟨n, hb, rfl⟩ := callDelay_eq_some hu
      cases h; exact .dsHoldPulse h1 h2 hb
    · -- DS_LED_OFF
      rcases await_eq_next h with ⟨hn, rfl⟩ | ⟨r, u, hu, h⟩
      · exact .waits hc (callDigitalWrite_none hn)
      obtain ⟨a, rest, hb, rfl, rfl⟩ := callDigitalWrite_eq_some hu
      cases he : a.err
      · rw [show writeResult a = .ok by simp [writeResult, he]] at h
        cases h; exact .dsLedOffOk h1 h2 hb he
      · rw [show writeResult a = .error by simp [writeResult, he]] at h
        cases h
        rcases batchFailure_cases { s with
            pinIn := rest
            trace := s.trace ++ [.call (.digitalWrite false) (.status .error)] } with
          ⟨hp, hr⟩ | ⟨hp, hr⟩ <;> rw [hr]
        · simpa [State.emit, State.enterFault, errorCode, stFault] using Transition.dsLedOffHalt h1 h2 hb he hp
        · simpa [State.emit, State.goto, stReadHumidity] using Transition.dsLedOffRecover h1 h2 hb he hp
    · -- DS_HOLD_SETTLE
      rcases await_eq_next h with ⟨hn, rfl⟩ | ⟨r, u, hu, h⟩
      · exact .waits hc (callDelay_none hn)
      obtain ⟨n, hb, rfl⟩ := callDelay_eq_some hu
      dsimp only at h
      split at h <;> rename_i hl <;> cases h
      · exact .dsHoldSettleLast h1 h2 hb hl
      · exact .dsHoldSettleMore h1 h2 hb hl
    · -- DS_CONVERT
      cases h; exact .dsConvert h1 h2
    · -- DS_PERSIST
      rcases await_eq_next h with ⟨hn, rfl⟩ | ⟨r, u, hu, h⟩
      · exact .waits hc (callInsertReading_none hn)
      obtain ⟨a, rest, hb, rfl, rfl⟩ := callInsertReading_eq_some hu
      cases he : a.err
      · rw [show insertResult a = .ok by simp [insertResult, he]] at h
        cases h; exact .dsPersistOk h1 h2 hb he
      · rw [show insertResult a = .error by simp [insertResult, he]] at h
        cases h
        rcases raise_policy (s := { s with
              persIn := rest
              trace := s.trace ++ [.call (.insertReading (sidDust s.cfg) s.vkind s.vnum) (.status .error)] })
            (e := .persistenceError) nofun rfl (sidDust s.cfg) (fun s => s.goto stReadHumidity 0) with ⟨hp, hr⟩ | ⟨hp, hr⟩ <;> rw [hr]
        · simpa [errorCode] using Transition.dsPersistHalt h1 h2 hb he hp
        · simpa [errorCode, State.goto, stReadHumidity] using Transition.dsPersistRecover h1 h2 hb he hp
    · -- HM_SAMPLE
      rcases await_eq_next h with ⟨hn, rfl⟩ | ⟨r, u, hu, h⟩
      · exact .waits hc (callAnalogRead_none hn)
      obtain ⟨a, rest, hb, rfl, rfl⟩ := callAnalogRead_eq_some hu
      cases h; exact .hmSample h1 h2 hb
    · -- HM_PERSIST
      rcases await_eq_next h with ⟨hn, rfl⟩ | ⟨r, u, hu, h⟩
      · exact .waits hc (callInsertReading_none hn)
      obtain ⟨a, rest, hb, rfl, rfl⟩ := callInsertReading_eq_some hu
      cases he : a.err
      · rw [show insertResult a = .ok by simp [insertResult, he]] at h
        cases h; exact .hmPersistOk h1 h2 hb he
      · rw [show insertResult a = .error by simp [insertResult, he]] at h
        cases h
        rcases raise_policy (s := { s with
              persIn := rest
              trace := s.trace ++ [.call (.insertReading (sidHum s.cfg) s.vkind s.vnum) (.status .error)] })
            (e := .persistenceError) nofun rfl (sidHum s.cfg) (fun s => s.goto stSleep 0) with ⟨hp, hr⟩ | ⟨hp, hr⟩ <;> rw [hr]
        · simpa [errorCode] using Transition.hmPersistHalt h1 h2 hb he hp
        · simpa [errorCode, State.goto, stSleep] using Transition.hmPersistRecover h1 h2 hb he hp
    · -- SLEEP
      rcases await_eq_next h with ⟨hn, rfl⟩ | ⟨r, u, hu, h⟩
      · exact .waits hc (callDelay_none hn)
      obtain ⟨n, hb, rfl⟩ := callDelay_eq_some hu
      cases h; exact .sleep h1 h2 hb
    · -- FAULT
      cases h
      have : s.setSt stFault = s := by cases s; cases h1; rfl
      rw [this]; exact .fault h1 h2
  · rw [hs] at h
    cases h
    exact .reserved hd

end Sys2Proof.Machine
end

