-- ==== Sys2Proof/Tests/Slice0.lean ====
section
/-! SUPPORT. Tests. Expected values are those of `95_test_vectors.md` unless a test says otherwise; then, for each
obligation that has hypotheses, a state and operands that meet them (`witness_…`). -/

namespace Sys2Proof.Tests

open Sys2Proof.Machine

/-! ## Ill-formed instructions are refused -/

theorem test_wf_insert_sid_zero : (Instr.insertReading 0 1 400).wf = false := by decide
theorem test_wf_insert_kind_none : (Instr.insertReading 1 0 0).wf = false := by decide
theorem test_wf_insert_temp_high : (Instr.insertReading 1 1 32768).wf = false := by decide
theorem test_wf_insert_temp_low : (Instr.insertReading 1 1 (BitVec.ofInt 39 (-32769))).wf = false := by decide
theorem test_wf_insert_dust_high : (Instr.insertReading 3 2 1424017).wf = false := by decide
theorem test_wf_insert_dust_negative : (Instr.insertReading 3 2 (BitVec.ofInt 39 (-1))).wf = false := by decide
theorem test_wf_insert_hum_high : (Instr.insertReading 4 3 160577316703).wf = false := by decide
theorem test_wf_insert_hum_low :
    (Instr.insertReading 4 3 (BitVec.ofInt 39 (-7892921719))).wf = false := by decide
theorem test_wf_delay_other : (Instr.delay 41).wf = false := by decide
theorem test_wf_diag_none : (Instr.diag 0 0).wf = false := by decide
theorem test_wf_diag_pin_init : (Instr.diag 0 4).wf = false := by decide
theorem test_wf_diag_reserved : (Instr.diag 0 9).wf = false := by decide

/-- The bounds themselves are well-formed (R115, R117, R118). -/
theorem test_wf_bounds :
    ((Instr.insertReading 255 1 (BitVec.ofInt 39 (-32768))).wf && (Instr.insertReading 1 1 32767).wf &&
      (Instr.insertReading 3 2 0).wf && (Instr.insertReading 3 2 1424016).wf &&
      (Instr.insertReading 4 3 (BitVec.ofInt 39 (-7892921718))).wf &&
      (Instr.insertReading 4 3 160577316702).wf && (Instr.delay 60000000).wf &&
      (Instr.diag 0 1).wf && (Instr.diag 255 8).wf) = true := by decide

/-! ## Decoding: each row's word written out from R101, R120, R122, R123, R117 -/

theorem test_decode_init_reset : decode (.seq 0b00000000) = .ok .initReset := by decide
theorem test_decode_init_enum : decode (.seq 0b00010000) = .ok .initEnum := by decide
theorem test_decode_idle : decode (.seq 0b00100000) = .ok .idle := by decide
theorem test_decode_start_conversion : decode (.seq 0b00110000) = .ok .startConversion := by decide
theorem test_decode_await_conversion : decode (.seq 0b01000000) = .ok .awaitConversion := by decide
theorem test_decode_rt_cmd : decode (.seq 0b01010000) = .ok .rtCmd := by decide
theorem test_decode_rt_byte : decode (.seq 0b01010001) = .ok .rtByte := by decide
theorem test_decode_rt_check : decode (.seq 0b01010010) = .ok .rtCheck := by decide
theorem test_decode_rt_persist : decode (.seq 0b01010011) = .ok .rtPersist := by decide
theorem test_decode_ds_led_on : decode (.seq 0b01100000) = .ok .dsLedOn := by decide
theorem test_decode_ds_hold_rise : decode (.seq 0b01100001) = .ok .dsHoldRise := by decide
theorem test_decode_ds_sample : decode (.seq 0b01100010) = .ok .dsSample := by decide
theorem test_decode_ds_hold_pulse : decode (.seq 0b01100011) = .ok .dsHoldPulse := by decide
theorem test_decode_ds_led_off : decode (.seq 0b01100100) = .ok .dsLedOff := by decide
theorem test_decode_ds_hold_settle : decode (.seq 0b01100101) = .ok .dsHoldSettle := by decide
theorem test_decode_ds_convert : decode (.seq 0b01100110) = .ok .dsConvert := by decide
theorem test_decode_ds_persist : decode (.seq 0b01100111) = .ok .dsPersist := by decide
theorem test_decode_hm_sample : decode (.seq 0b01110000) = .ok .hmSample := by decide
theorem test_decode_hm_persist : decode (.seq 0b01110001) = .ok .hmPersist := by decide
theorem test_decode_sleep : decode (.seq 0b10000000) = .ok .sleep := by decide
theorem test_decode_fault : decode (.seq 0b10010000) = .ok .fault := by decide
/-- The operand signals of the other bus operations are ignored. -/
theorem test_decode_reset_bus : decode (.busReq 0b000 1 0xFF 0xFF) = .ok .resetBus := by decide
theorem test_decode_enumerate_next :
    decode (.busReq 0b001 0b1 0 0) = .ok (.enumerateNext true) := by decide
theorem test_decode_transaction :
    decode (.busReq 0b010 0 0x44 0x5666554433221128) = .ok (.transaction 0x44 0x5666554433221128) := by decide
theorem test_decode_read_byte : decode (.busReq 0b011 0 0 0) = .ok .readByte := by decide
theorem test_decode_digital_write : decode (.pinReq 0b0 0b1 0) = .ok (.digitalWrite true) := by decide
theorem test_decode_analog_read : decode (.pinReq 0b1 0 0b1) = .ok (.analogRead .hum) := by decide
/-- `(TEMP, −880)` packs as 1, then 0x7FFFFFFC90. -/
theorem test_decode_insert_reading :
    decode (.persReq 1 0xFFFFFFFC90) = .ok (.insertReading 1 1 (BitVec.ofInt 39 (-880))) := by decide
theorem test_decode_delay : decode (.dlyReq 0x25D0) = .ok (.delay 9680) := by decide
theorem test_decode_diag : decode (.diagEvent 0x02 0x6) = .ok (.diag 2 6) := by decide

/-- The reserved encodings the spec lists (R124, R125). -/
theorem test_decode_reserved :
    [0x01, 0x54, 0x68, 0x72, 0x81, 0xA0, 0xFF].all (fun w => decodeTableWord 8 w == none) = true ∧
      decode (.busReq 0b100 0 0 0) = .error (.reservedBusOp 4) ∧
      decode (.persReq 1 0) = .error .noValue ∧
      decode (.diagEvent 0 0x4) = .error (.reservedDiagKind 4) := by decide

/-- 21 words are defined and 235 reserved. -/
theorem test_decode_count :
    ((List.range 256).filter fun w => (decodeTableWord 8 w).isSome).length = 21 := by decide +kernel

/-- The five delay arguments (R118). -/
theorem test_encode_delays :
    [280, 40, 9680, 1000000, 60000000].map (fun n => encode (.delay (BitVec.ofNat 26 n))) =
      [0x0000118, 0x0000028, 0x00025D0, 0x00F4240, 0x3938700].map CodeWord.dlyReq := by decide

/-- `(HUM, −7892921718)` packs as 3, then 0x7E298B928A. -/
theorem test_encode_humidity :
    encode (.insertReading 4 3 (BitVec.ofInt 39 (-7892921718))) = .persReq 4 0x1FE298B928A := by decide

/-! ## Operand forms -/

theorem test_crc_vectors :
    crcOneWire #v[0, 0, 0, 0, 0, 0, 0, 0] = 0x00 ∧
      crcOneWire #v[0xFF, 0xFF, 0xFF, 0xFF, 0xFF, 0xFF, 0xFF, 0xFF] = 0xC9 ∧
      crcOneWire #v[0x02, 0, 0, 0, 0, 0, 0, 0] = 0x86 ∧
      crcOneWire #v[0x50, 0x05, 0x4B, 0x46, 0x7F, 0xFF, 0x0C, 0x10] = 0x1C ∧
      crcOneWire #v[0x90, 0x01, 0x4B, 0x46, 0x7F, 0xFF, 0x0C, 0x10] = 0x33 := by decide +kernel

theorem test_crc_short_strings :
    crcRegister [0x01] = 0x5E ∧ crcRegister [0x80] = 0x8C ∧
      crcRegister [0x02, 0x1C, 0xB8, 0x01, 0, 0, 0] = 0xA2 := by decide +kernel

/-- Rows of the temperature table, the two readings of S3 and the most negative field among them. -/
theorem test_decode_raw :
    decodeRaw 0x90 0x01 = 400 ∧ decodeRaw 0x90 0xFC = -880 ∧ decodeRaw 0xFF 0xFE = -257 ∧
      decodeRaw 0xFE 0xFF = -2 ∧ decodeRaw 0xFF 0x7F = 32767 ∧ decodeRaw 0x00 0x80 = -32768 := by decide

theorem test_dust_numerator :
    dustNum 0 = 0 ∧ dustNum 1964 = 0 ∧ dustNum 1965 = 105 ∧ dustNum 8184 = 777480 ∧
      dustNum 11457 = 1186605 ∧ dustNum 11458 = 1424016 ∧ dustNum 16368 = 1424016 := by decide

theorem test_humidity_numerator :
    humNum 0 = -7892921718 ∧ humNum 58 = -94594648 ∧ humNum 59 = 41707442 ∧
      humNum 512 = 68228916362 ∧ humNum 1023 = 160577316702 := by decide

/-- S6 to S9: the dust curve at the breakpoints and beyond; S10: the humidity curve at 2 V. -/
theorem test_curves :
    dustCurve (3 / 5) = 0 ∧ dustCurve (7 / 2) = 1 / 2 ∧ dustCurve 10 = 3 / 5 ∧
      humCurve 2 = 12333 / 250 := by
  norm_num [dustCurve, humCurve, dustLo, dustHi, dustDiv, dustSat, humA2, humA1, humA0]

/-- The sanity relations of R13. -/
theorem test_constants :
    tRise.toNat + tPulse.toNat + tSettle.toNat = 10000 ∧ 750000 ≤ tConv.toNat ∧
      nDust * adcMax = 16368 ∧ nDust * adcMax < 2 ^ 14 := by decide

/-- Byte 0 of an address is its family code. -/
theorem test_address_bytes :
    addrBytes 0x5666554433221128 = [0x28, 0x11, 0x22, 0x33, 0x44, 0x55, 0x66, 0x56] := by decide

/-! ## States for the tests -/

def adr0 : Address := 0x5666554433221128
def adr1 : Address := 0x0CFFEEDDCCBBAA28

/-- A machine past its startup, two probes, in state `st` and phase `ph`. -/
def at' (st ph : BitVec 4) : State := { State.reset with st := st, ph := ph, eidx := 2, addr := [adr0, adr1] }

/-- What a projection gives after an instruction that goes on. -/
def after {α : Type} (o : Out) (f : State → α) : Option α :=
  match o with
  | .next t => some (f t)
  | .fault _ => none
  | .refused _ => none

def busOk : BusAnswer := ⟨0, 0, 0⟩
def pinOk : PinAnswer := ⟨false, 0⟩
def pinErr : PinAnswer := ⟨true, 0⟩
def frame1 : Vector Byte 9 := #v[0x5E, 0xFF, 0x4B, 0x46, 0x7F, 0xFF, 0x0C, 0x10, 0x6A]
def frameBad : Vector Byte 9 := #v[0x5F, 0xFF, 0x4B, 0x46, 0x7F, 0xFF, 0x0C, 0x10, 0x6A]

/-! ## One step each -/

theorem test_init_reset_no_devices :
    after (exec .initReset { State.reset with busIn := [⟨1, 0, 0⟩] })
      (fun t => (t.st, t.fault, t.faultCode, t.faultSid, t.trace)) =
      some (9, true, 1, 0, [.call .resetBus (.reset .noDevices), .diag 0 1]) := by decide

theorem test_init_enum_last :
    after (exec .initEnum { State.reset with st := 1, eidx := 1, busIn := [⟨0, 0, adr1⟩] })
      (fun t => (t.st, t.eidx, t.addr, t.trace)) =
      some (2, 2, [0, adr1], [.call (.enumerateNext true) (.enum (.addr adr1))]) := by decide

theorem test_init_enum_few :
    after (exec .initEnum { State.reset with st := 1, eidx := 1, busIn := [⟨1, 0, 0⟩] })
      (fun t => (t.st, t.faultCode, t.eidx)) = some (9, 2, 1) := by decide

theorem test_idle : after (exec .idle (at' 2 0)) (fun t => (t.st, t.pidx)) = some (3, 0) := by decide

theorem test_start_conversion :
    after (exec .startConversion { at' 3 0 with busIn := [busOk] }) (fun t => (t.st, t.trace)) =
      some (4, [.call (.transaction 0x44 adr0) .done]) := by decide

theorem test_await_conversion :
    after (exec .awaitConversion { at' 4 0 with dlyIn := 1 }) (fun t => (t.st, t.ph, t.trace)) =
      some (5, 0, [.call (.delay 1000000) .done]) := by decide

theorem test_rt_cmd :
    after (exec .rtCmd { at' 5 0 with pidx := 1, bcnt := 9, busIn := [busOk] })
      (fun t => (t.bcnt, t.st, t.ph, t.trace)) =
      some (0, 5, 1, [.call (.transaction 0xBE adr1) .done]) := by decide

theorem test_rt_byte_first :
    after (exec .rtByte { at' 5 1 with busIn := [⟨0, 0x5E, 0⟩] })
      (fun t => (t.sp[0], t.bcnt, t.ph)) = some (0x5E, 1, 1) := by decide

theorem test_rt_byte_last :
    after (exec .rtByte { at' 5 1 with bcnt := 8, busIn := [⟨0, 0x6A, 0⟩] })
      (fun t => (t.sp[8], t.bcnt, t.ph)) = some (0x6A, 9, 2) := by decide

theorem test_rt_check_match :
    after (exec .rtCheck { at' 5 2 with pidx := 1, sp := frame1 })
      (fun t => (t.vkind, t.vnum.toInt, t.ph, t.trace)) = some (1, -162, 3, []) := by decide +kernel

theorem test_rt_check_mismatch :
    after (exec .rtCheck { at' 5 2 with pidx := 1, sp := frameBad })
      (fun t => (t.vkind, t.pidx, t.st, t.ph, t.trace)) = some (0, 0, 6, 0, [.diag 2 6]) := by decide +kernel

theorem test_rt_persist_next_probe :
    after (exec .rtPersist { at' 5 3 with vkind := 1, vnum := 400, persIn := [⟨false⟩] })
      (fun t => (t.pidx, t.st, t.ph, t.trace)) =
      some (1, 3, 0, [.call (.insertReading 1 1 400) (.status .ok)]) := by decide

theorem test_rt_persist_halt :
    after (exec .rtPersist { at' 5 3 with pol := .halt, vkind := 1, persIn := [⟨true⟩] })
      (fun t => (t.faultCode, t.faultSid, t.st)) = some (8, 1, 9) := by decide

theorem test_ds_led_on : after (exec .dsLedOn { at' 6 0 with pinIn := [pinOk] })
    (fun t => (t.ph, t.trace)) = some (1, [.call (.digitalWrite true) (.status .ok)]) := by decide

theorem test_ds_led_on_error :
    after (exec .dsLedOn { at' 6 0 with pinIn := [pinErr] }) (fun t => (t.st, t.ph, t.fault, t.trace)) =
      some (7, 0, false, [.call (.digitalWrite true) (.status .error), .diag 3 5, .diag 3 7]) := by decide

theorem test_ds_hold_rise : after (exec .dsHoldRise { at' 6 1 with dlyIn := 1 })
    (fun t => (t.ph, t.trace)) = some (2, [.call (.delay 280) .done]) := by decide

theorem test_ds_sample : after (exec .dsSample { at' 6 2 with k := 3, sum := 1000, pinIn := [⟨false, 400⟩] })
    (fun t => (t.sum, t.ph, t.k)) = some (1400, 3, 3) := by decide

theorem test_ds_hold_pulse : after (exec .dsHoldPulse { at' 6 3 with dlyIn := 1 })
    (fun t => (t.ph, t.trace)) = some (4, [.call (.delay 40) .done]) := by decide

theorem test_ds_led_off_error_halt :
    after (exec .dsLedOff { at' 6 4 with pol := .halt, k := 15, sum := 1845, pinIn := [pinErr] })
      (fun t => (t.st, t.faultCode, t.faultSid, t.k, t.sum)) = some (9, 7, 3, 15, 1845) := by decide

theorem test_ds_hold_settle_last : after (exec .dsHoldSettle { at' 6 5 with k := 15, dlyIn := 1 })
    (fun t => (t.k, t.ph)) = some (16, 6) := by decide

theorem test_ds_hold_settle_more : after (exec .dsHoldSettle { at' 6 5 with k := 3, dlyIn := 1 })
    (fun t => (t.k, t.ph)) = some (4, 0) := by decide

theorem test_ds_convert : after (exec .dsConvert { at' 6 6 with k := 16, sum := 1968 })
    (fun t => (t.vkind, t.vnum, t.ph)) = some (2, 480, 7) := by decide

theorem test_ds_persist_error :
    after (exec .dsPersist { at' 6 7 with vkind := 2, vnum := 480, persIn := [⟨true⟩] })
      (fun t => (t.st, t.ph, t.trace)) =
      some (7, 0, [.call (.insertReading 3 2 480) (.status .error), .diag 3 8]) := by decide

theorem test_hm_sample : after (exec .hmSample { at' 7 0 with pinIn := [⟨false, 512⟩] })
    (fun t => (t.vkind, t.vnum.toInt, t.ph)) = some (3, 68228916362, 1) := by decide

theorem test_hm_persist : after (exec .hmPersist { at' 7 1 with vkind := 3, persIn := [⟨false⟩] })
    (fun t => (t.st, t.ph, t.trace)) = some (8, 0, [.call (.insertReading 4 3 0) (.status .ok)]) := by decide

theorem test_sleep : after (exec .sleep { at' 8 0 with dlyIn := 1 })
    (fun t => (t.st, t.ph, t.trace)) = some (3, 0, [.call (.delay 60000000) .done]) := by decide

theorem test_fault : after (exec .fault (at' 9 0)) id = some (at' 9 0) := by decide

/-- An unanswered call changes nothing, and a reserved word goes to `FAULT` with no event. -/
theorem test_step_waits_and_reserved :
    after (step State.reset) id = some State.reset ∧
      after (step (at' 9 1)) (fun t => (t.st, t.ph, t.faultCode, t.trace)) = some (9, 0, 0, []) := by decide

/-- A probe index with no `ADDR` entry stops (from R36). -/
theorem test_absent_address : after (exec .startConversion { at' 3 0 with pidx := 2 }) id = none := by decide

/-- The last probe of a one-probe block is also the first (R218). -/
theorem test_advance_single_probe :
    ((State.resetWith ⟨0, .oneWire, 0x44, 0xBE⟩ .halt).advance.st,
      (State.resetWith ⟨0, .oneWire, 0x44, 0xBE⟩ .halt).advance.pidx) = (6, 0) := by decide

/-- `withFetchWord` places a word for the step. -/
theorem test_fetch_word :
    (State.reset.withFetchWord 8 0x53).seqWord = 0x53 ∧ decodeTableWord 8 0x53 = some .rtPersist := by decide

/-- Two of the texts of the programs' traces. -/
theorem test_text :
    Event.text (.call (.transaction 0x44 adr0) .done) =
      "bus.transaction(0x44, 28 11 22 33 44 55 66 56) => ()" ∧
    Event.text (.diag 3 7) = "diag(3, BatchCollectionError)" := by decide

/-! ## Witnesses: the hypotheses of each obligation hold together somewhere

A theorem `witness_X` names a state and operands that meet the hypotheses of the obligation `X`, each clause of it, at
the boundary of its ranges where it has one. -/

theorem witness_DecodeAndEncodeAgree :
    (Instr.insertReading 255 3 160577316702).wf = true ∧ (Instr.delay 60000000).wf = true ∧
      (Instr.diag 255 8).wf = true ∧ decode (.busReq 1 1 7 7) = .ok (.enumerateNext true) := by decide

theorem witness_StepRunsTheDecodedMicroOperation :
    decode (.seq ((at' 5 3).st ++ (at' 5 3).ph)) = .ok .rtPersist := by decide

theorem witness_ReservedWordsGoToFault :
    decode (.seq ((at' 7 2).st ++ (at' 7 2).ph)) = .error (.reservedSeqWord 0x72) := by decide

/-- The three statuses of `reset_bus`. -/
theorem witness_InitResetEntersEnumerationOrFault :
    { State.reset with busIn := [⟨0, 0, 0⟩] }.busIn = ⟨0, 0, 0⟩ :: [] ∧ (⟨0, 0, 0⟩ : BusAnswer).status = 0 ∧
      { State.reset with busIn := [⟨1, 0, 0⟩] }.busIn = ⟨1, 0, 0⟩ :: [] ∧
      (⟨1, 0, 0⟩ : BusAnswer).status = 1 ∧
      { State.reset with busIn := [⟨2, 0, 0⟩] }.busIn = ⟨2, 0, 0⟩ :: [] ∧
      (⟨2, 0, 0⟩ : BusAnswer).status = 2 := by decide

/-- The last entry, the first one and a later one. -/
def enumState (i : BitVec 8) (a : BusAnswer) : State := { State.reset with st := 1, eidx := i, busIn := [a] }

theorem witness_InitEnumStoresAnAddressOrFaults :
    ((enumState 1 ⟨0, 0, adr1⟩).busIn = ⟨0, 0, adr1⟩ :: [] ∧
      (enumState 1 ⟨0, 0, adr1⟩).addr.length = (enumState 1 ⟨0, 0, adr1⟩).cfg.nProbes ∧
      (enumState 1 ⟨0, 0, adr1⟩).eidx.toNat < (enumState 1 ⟨0, 0, adr1⟩).cfg.nProbes) ∧
    ((enumState 0 ⟨1, 0, 0⟩).busIn = ⟨1, 0, 0⟩ :: [] ∧ (enumState 0 ⟨1, 0, 0⟩).eidx = 0 ∧
      (enumState 0 ⟨1, 0, 0⟩).addr.length = (enumState 0 ⟨1, 0, 0⟩).cfg.nProbes ∧
      (enumState 0 ⟨1, 0, 0⟩).eidx.toNat < (enumState 0 ⟨1, 0, 0⟩).cfg.nProbes) ∧
    ((enumState 1 ⟨1, 0, 0⟩).busIn = ⟨1, 0, 0⟩ :: [] ∧ (enumState 1 ⟨1, 0, 0⟩).eidx ≠ 0 ∧
      (enumState 1 ⟨1, 0, 0⟩).addr.length = (enumState 1 ⟨1, 0, 0⟩).cfg.nProbes ∧
      (enumState 1 ⟨1, 0, 0⟩).eidx.toNat < (enumState 1 ⟨1, 0, 0⟩).cfg.nProbes) := by decide

/-- A step into each of the three states. -/
theorem witness_IdleIsPassedOncePerReset :
    (∃ t, step (enumState 1 ⟨0, 0, adr1⟩) = .next t ∧ t.seqWord = 0x20) ∧
    (∃ t, step { State.reset with busIn := [busOk] } = .next t ∧ t.seqWord = 0x10) ∧
    (∃ t, step State.reset = .next t ∧ t.seqWord = 0x00) :=
  ⟨⟨_, rfl, by decide⟩, ⟨_, rfl, by decide⟩, ⟨_, rfl, by decide⟩⟩

theorem witness_StatusesOutsideTheSignature :
    (enumState 1 ⟨3, 0, 0⟩).busIn = ⟨3, 0, 0⟩ :: [] ∧ (⟨3, 0, 0⟩ : BusAnswer).status = 3 ∧
      (enumState 1 ⟨2, 0, 0⟩).busIn = ⟨2, 0, 0⟩ :: [] ∧ (⟨2, 0, 0⟩ : BusAnswer).status = 2 ∧
      (enumState 1 ⟨2, 0, 0⟩).eidx ≠ 0 ∧
      (enumState 0 ⟨2, 0, 0⟩).busIn = ⟨2, 0, 0⟩ :: [] ∧ (enumState 0 ⟨2, 0, 0⟩).eidx = 0 ∧
      (enumState 0 ⟨3, 0, 0⟩).busIn = ⟨3, 0, 0⟩ :: [] ∧ (enumState 0 ⟨3, 0, 0⟩).eidx = 0 := by decide

/-- The last probe. -/
theorem witness_StartConversionAddressesTheCurrentProbe :
    { at' 3 0 with pidx := 1, busIn := [busOk] }.addr[(1 : BitVec 8).toNat]? = some adr1 ∧
      { at' 3 0 with pidx := 1, busIn := [busOk] }.busIn = busOk :: [] := by decide

theorem witness_RtCmdAddressesTheCurrentProbe :
    ({ at' 5 0 with pidx := 1, busIn := [busOk] }.addr[(1 : BitVec 8).toNat]? = some adr1 ∧
      { at' 5 0 with pidx := 1, busIn := [busOk] }.busIn = busOk :: []) ∧
    (∃ t, step { at' 4 0 with dlyIn := 1 } = .next t ∧ t.seqWord = 0x50) :=
  ⟨by decide, _, rfl, by decide⟩

theorem witness_ConversionWaitAndSleepAreFixedDelays : { at' 4 0 with dlyIn := 1 }.dlyIn = 0 + 1 := by decide

/-- The last byte of a frame; and a whole frame from its start. -/
theorem witness_RtByteReadsANineByteFrame :
    ({ at' 5 1 with bcnt := 8, busIn := [busOk] }.bcnt.toNat < 9 ∧
      { at' 5 1 with bcnt := 8, busIn := [busOk] }.busIn = busOk :: []) ∧
    ({ at' 5 1 with busIn := List.replicate 9 busOk }.seqWord = 0x51 ∧
      { at' 5 1 with busIn := List.replicate 9 busOk }.bcnt = 0 ∧ (List.replicate 9 busOk).length = 9 ∧
      { at' 5 1 with busIn := List.replicate 9 busOk }.busIn = List.replicate 9 busOk ++ []) := by decide

/-- A frame that matches, and one that does not, under both policies, at the last probe. -/
theorem witness_RtCheckDecodesOrRaises :
    crc8 Config.normative #v[0x5E, 0xFF, 0x4B, 0x46, 0x7F, 0xFF, 0x0C, 0x10] = frame1[8] ∧
    crc8 Config.normative #v[0x5F, 0xFF, 0x4B, 0x46, 0x7F, 0xFF, 0x0C, 0x10] ≠ frameBad[8] ∧
    { at' 5 2 with pidx := 1, sp := frameBad }.pidx.toNat < (at' 5 2).cfg.nProbes ∧
    { at' 5 2 with pidx := 1, sp := frameBad }.pol = .recover ∧
    { at' 5 2 with pol := .halt, pidx := 1, sp := frameBad }.pol = .halt := by decide +kernel

theorem witness_ProbeAdvanceTakesTheNextProbeOrTheDustLeg :
    (at' 5 3).pidx.toNat + 1 < (at' 5 3).cfg.nProbes ∧
      { at' 5 3 with pidx := 1 }.pidx.toNat + 1 = (at' 5 3).cfg.nProbes := by decide

/-- Persistence answering `Ok` and `Error`, under both policies, at the last probe. -/
def persState (pol : Policy) (err : Bool) : State :=
  { at' 5 3 with pol := pol, pidx := 1, vkind := 1, vnum := 400, persIn := [⟨err⟩] }

theorem witness_RtPersistSendsTheReadingOnce :
    (persState .recover false).persIn = ⟨false⟩ :: [] ∧ (persState .recover true).persIn = ⟨true⟩ :: [] ∧
      (persState .recover true).pidx.toNat < (persState .recover true).cfg.nProbes ∧
      (persState .recover true).pol = .recover ∧ (persState .halt true).persIn = ⟨true⟩ :: [] ∧
      (persState .halt true).pidx.toNat < (persState .halt true).cfg.nProbes ∧
      (persState .halt true).pol = .halt := by decide

theorem witness_EmitterWritesGoOnOrFailTheBatch :
    { at' 6 0 with pinIn := [pinOk] }.pinIn = pinOk :: [] ∧ pinOk.err = false ∧
      { at' 6 0 with pinIn := [pinErr] }.pinIn = pinErr :: [] ∧ pinErr.err = true ∧
      (at' 6 0).pol = .recover ∧ { at' 6 0 with pol := .halt, pinIn := [pinErr] }.pol = .halt := by decide

theorem witness_RiseAndPulseHolds : { at' 6 1 with dlyIn := 1 }.dlyIn = 0 + 1 := by decide

/-- The largest sum a batch has before its last sample, and the largest count. -/
theorem witness_DsSampleAddsTheCount :
    { at' 6 2 with sum := 15345, pinIn := [⟨false, 1023⟩] }.pinIn = ⟨false, 1023⟩ :: [] ∧
      { at' 6 2 with sum := 15345, pinIn := [⟨false, 1023⟩] }.sum.toNat + (1023 : Count).toNat < 2 ^ 14 := by
  decide

theorem witness_DsHoldSettleCountsTheSample :
    { at' 6 5 with k := 15, dlyIn := 1 }.dlyIn = 0 + 1 ∧
      { at' 6 5 with k := 15, dlyIn := 1 }.k.toNat < 16 := by decide

/-- Sixteen counts, the largest and the smallest among them. -/
def counts16 : List Count := [1023, 0] ++ List.replicate 14 123

/-- The start of a batch whose writes all succeed. -/
def batchState : State :=
  { at' 6 0 with
    pinIn := counts16.flatMap fun r => [⟨false, 0⟩, ⟨false, r⟩, ⟨false, 0⟩]
    dlyIn := 48 }

theorem witness_BatchOfSixteenSamplesTakes96Calls :
    batchState.seqWord = 0x60 ∧ batchState.k = 0 ∧ batchState.sum = 0 ∧ counts16.length = 16 ∧
      batchState.pinIn = (counts16.flatMap fun r => [⟨false, 0⟩, ⟨false, r⟩, ⟨false, 0⟩]) ++ [] ∧
      batchState.dlyIn = 48 + 0 := by decide

/-- A failure-free run into the first sample: its start, and the empty run. -/
theorem witness_EmitterIsOnOnlyInsideASample :
    (at' 3 0).seqWord = 0x30 ∧ (∃ t, runSteps 1 (at' 3 0) = .next t ∧
      ∀ level, .call (.digitalWrite level) (.status .error) ∉ newEvents (at' 3 0) t) :=
  ⟨by decide, _, rfl, by decide⟩

theorem witness_PredicatesSayWhatTheirReadersUse :
    { at' 5 2 with pidx := 1 }.pidx.toNat < (at' 5 2).cfg.nProbes ∧
      lastProbe { at' 5 2 with pidx := 1 } = true ∧ lastProbe (at' 5 2) = false := by decide

theorem witness_AddressIsItsEightBytes : (7 : Nat) < 8 := by decide

theorem witness_PseudoOperationsRunTheirExpansions :
    ({ at' 5 0 with busIn := List.replicate 10 busOk }.seqWord = 0x50 ∧
      (at' 5 0).addr[(at' 5 0).pidx.toNat]? = some adr0 ∧
      10 ≤ { at' 5 0 with busIn := List.replicate 10 busOk }.busIn.length) ∧
    (batchState.seqWord = 0x60 ∧ batchState.k = 0 ∧ counts16.length = 16 ∧
      batchState.pinIn = (counts16.flatMap fun r => [⟨false, 0⟩, ⟨false, r⟩, ⟨false, 0⟩]) ++ [] ∧
      48 ≤ batchState.dlyIn) := by decide

/-- The four sums at the breakpoints. -/
theorem witness_DsConvertWritesTheDensity :
    { at' 6 6 with sum := 1964 }.sum.toNat ≤ 1964 ∧ 1965 ≤ { at' 6 6 with sum := 1965 }.sum.toNat ∧
      { at' 6 6 with sum := 11457 }.sum.toNat ≤ 11457 ∧
      11458 ≤ { at' 6 6 with sum := 11458 }.sum.toNat := by decide

theorem witness_DustNumeratorIsTheCurveAtTheMean : (16368 : Nat) ≤ 16368 := by decide

theorem witness_BatchMeanIsTheVoltageOfTheSum : counts16.length = 16 := by decide

theorem witness_DustMeansMissTheBreakpoints : (11457 : Nat) ≤ 16368 := by decide

theorem witness_DsPersistSendsTheDensityOnce :
    { at' 6 7 with persIn := [⟨false⟩] }.persIn = ⟨false⟩ :: [] ∧
      { at' 6 7 with persIn := [⟨true⟩] }.persIn = ⟨true⟩ :: [] ∧ (at' 6 7).pol = .recover ∧
      { at' 6 7 with pol := .halt, persIn := [⟨true⟩] }.pol = .halt := by decide

theorem witness_HmSampleEvaluatesTheQuadratic :
    { at' 7 0 with pinIn := [⟨false, 1023⟩] }.pinIn = ⟨false, 1023⟩ :: [] := by decide

theorem witness_HumidityNumeratorIsTheQuadratic : (1022 : Nat) < 1023 ∧ (1023 : Nat) ≤ 1023 := by decide

theorem witness_HmPersistSendsTheHumidityOnce :
    { at' 7 1 with persIn := [⟨false⟩] }.persIn = ⟨false⟩ :: [] ∧
      { at' 7 1 with persIn := [⟨true⟩] }.persIn = ⟨true⟩ :: [] ∧ (at' 7 1).pol = .recover ∧
      { at' 7 1 with pol := .halt, persIn := [⟨true⟩] }.pol = .halt := by decide

theorem witness_FaultIsTerminal : (at' 9 0).seqWord = 0x90 := by decide

theorem witness_RaiseReportsThenFaultsOrContinues :
    (ErrorKind.busDataError, 3#4) ∈
      [(ErrorKind.noDevicesFound, 1#4), (.insufficientDevices, 2#4), (.busDataError, 3#4)] ∧
    (ErrorKind.persistenceError, 8#4) ∈
      [(ErrorKind.crcMismatch, 6#4), (.batchCollectionError, 7#4), (.persistenceError, 8#4)] ∧
    (persState .halt true).pol = .halt ∧ (persState .recover true).pol = .recover := by decide

theorem witness_RecoverFaultsOnlyAtStartup :
    (enumState 1 ⟨1, 0, 0⟩).pol = .recover ∧
      decode (.seq (enumState 1 ⟨1, 0, 0⟩).seqWord) = .ok .initEnum ∧
      ∃ t, step (enumState 1 ⟨1, 0, 0⟩) = .next t ∧ t.st = 9 :=
  ⟨by decide, by decide, _, rfl, by decide⟩

theorem witness_AbsentStorageStopsTheStep :
    { at' 3 0 with pidx := 2 }.addr.length ≤ { at' 3 0 with pidx := 2 }.pidx.toNat ∧
    ((enumState 2 busOk).busIn = busOk :: [] ∧ busOk.status = 0 ∧
      (enumState 2 busOk).addr.length ≤ (enumState 2 busOk).eidx.toNat) ∧
    ({ at' 5 1 with bcnt := 9, busIn := [busOk] }.busIn = busOk :: [] ∧
      9 ≤ { at' 5 1 with bcnt := 9, busIn := [busOk] }.bcnt.toNat) := by decide

theorem witness_BusRequestsAreTheirCalls :
    { State.reset with busIn := [⟨0, 0, 0⟩] }.busIn = ⟨0, 0, 0⟩ :: [] ∧
      { State.reset with busIn := [⟨1, 0, 0⟩] }.busIn = ⟨1, 0, 0⟩ :: [] ∧
      { State.reset with busIn := [⟨2, 0, 0⟩] }.busIn = ⟨2, 0, 0⟩ :: [] := by decide

theorem witness_PinPersistenceDelayAndDiagRequests :
    { State.reset with pinIn := [pinErr] }.pinIn = pinErr :: [] ∧
      { State.reset with persIn := [⟨true⟩] }.persIn = ⟨true⟩ :: [] ∧
      { State.reset with dlyIn := 1 }.dlyIn = 0 + 1 := by decide

theorem witness_UnansweredCallsBlock :
    callOfInstr .hmSample (at' 7 0) = some (.analogRead .hum) ∧
      answered (.analogRead .hum) (at' 7 0) = false := by decide

/-- A step with a call and two events, and one that waits. -/
theorem witness_StepMakesAtMostItsOneCall :
    (∃ t, step { at' 6 0 with pinIn := [pinErr] } = .next t ∧ t.trace.length = 3) ∧
    (∃ t, step (at' 6 0) = .next t ∧ t = at' 6 0) :=
  ⟨⟨_, rfl, by decide⟩, _, rfl, by decide⟩

theorem witness_OutputsCarryThePendingCall :
    callOf State.reset = some .resetBus ∧ callOf (at' 5 1) = some .readByte ∧
      callOf (at' 6 2) = some (.analogRead .dust) ∧ callOf (at' 7 0) = some (.analogRead .hum) ∧
    callOf (at' 3 0) = some (.transaction 0x44 adr0) ∧
      callOf (enumState 1 busOk) = some (.enumerateNext true) ∧
      callOf (at' 6 0) = some (.digitalWrite true) ∧
      callOf (persState .halt true) = some (.insertReading 2 1 400) ∧
      callOf (at' 8 0) = some (.delay 60000000) := by decide

/-- The codes of R120 and R122 on the signals, for a bus, a dust and a humidity call. -/
theorem test_output_codes :
    ((outputs (at' 5 1)).busReq, (outputs (at' 5 1)).busOp) = (true, 3) ∧
      ((outputs (at' 6 2)).pinOp, (outputs (at' 6 2)).pinCh) = (1, 0) ∧
      ((outputs (at' 7 0)).pinOp, (outputs (at' 7 0)).pinCh) = (1, 1) := by decide

theorem witness_RegistersChangeOnlyByTheirWriters :
    ∃ t, step (persState .recover true) = .next t ∧ (persState .recover true).seqWord ≠ 0x10 ∧
      t.seqWord ≠ 0x90 ∧ (0 : BitVec 8) ≠ (persState .recover true).eidx :=
  ⟨_, rfl, by decide⟩

/-- A state of the invariant in the middle of the temperature leg, its reading about to be sent. -/
theorem persState_inv : (persState .recover true).Inv where
  wordDefined := ⟨.rtPersist, by decide⟩
  pidxRange := by decide
  eidxRange := by decide
  eidxFull := by decide
  bcntRange := by decide
  kRange := by decide
  sumBySamples := by decide
  sumRange := by decide
  faultFlag := by decide
  faultCodeSet := by decide
  addrLength := by decide
  eidxBeforeEnum := by decide
  eidxDuringEnum := by decide
  bcntBeforeByte := by decide
  bcntAtCheck := by decide
  kDuringBatch := by decide
  kAtConvert := by decide
  sumBeforeSample := by decide
  pidxAtRest := by decide
  tempReady := by decide
  dustReady := by decide
  humReady := by decide
  faultSidClear := by decide
  faultSidRange := by decide

theorem witness_StepKeepsTheInvariant :
    (persState .recover true).Inv ∧ ∃ t, step (persState .recover true) = .next t ∧ t.seqWord = 0x60 :=
  ⟨persState_inv, _, rfl, by decide⟩

theorem witness_ReachableStatesMeetR48 : Reachable (State.resetWith Config.normative .halt) :=
  .reset _ _ (by decide)

theorem witness_TheMachineAlwaysHasAStep : (persState .recover true).Inv := persState_inv

theorem witness_EveryEventIsWellFormed :
    (persState .recover true).Inv ∧
      ∃ t, step (persState .recover true) = .next t ∧ .diag 2 8 ∈ newEvents (persState .recover true) t :=
  ⟨persState_inv, _, rfl, by decide⟩

theorem witness_RecordIdsIncreaseWithinACycle :
    (persState .recover true).Inv ∧ ∃ t, runSteps 2 (persState .recover true) = .next t ∧
      (∀ e ∈ newEvents (persState .recover true) t, e.endsCycle = false) ∧
      2 ∈ insertedIds (newEvents (persState .recover true) t) :=
  ⟨persState_inv, _, rfl, by decide, by decide⟩

/-- The start of a cycle of a block with one probe, with answers enough for any cycle of it; the frame fails its
CRC and the first emitter write fails. -/
def cycleState : State :=
  { State.resetWith ⟨0, .oneWire, 0x44, 0xBE⟩ .recover with
    st := 3
    eidx := 1
    busIn := List.replicate 11 ⟨0, 0xFF, 0⟩
    pinIn := pinErr :: List.replicate 48 pinOk
    persIn := List.replicate 3 ⟨false⟩
    dlyIn := 50 }

theorem cycleState_inv : cycleState.Inv where
  wordDefined := ⟨.startConversion, by decide⟩
  pidxRange := by decide
  eidxRange := by decide
  eidxFull := by decide
  bcntRange := by decide
  kRange := by decide
  sumBySamples := by decide
  sumRange := by decide
  faultFlag := by decide
  faultCodeSet := by decide
  addrLength := by decide
  eidxBeforeEnum := by decide
  eidxDuringEnum := by decide
  bcntBeforeByte := by decide
  bcntAtCheck := by decide
  kDuringBatch := by decide
  kAtConvert := by decide
  sumBeforeSample := by decide
  pidxAtRest := by decide
  tempReady := by decide
  dustReady := by decide
  humReady := by decide
  faultSidClear := by decide
  faultSidRange := by decide

/-- Sixteen steps to the end of the cycle; the hypotheses name the state it reaches. -/
theorem witness_NoReadingIsLostSilently :
    cycleState.Inv ∧ cycleState.seqWord = 0x30 ∧ cycleState.pidx = 0 ∧
      after (runSteps 16 cycleState) (fun t =>
        (t.seqWord, (newEvents cycleState t).all fun e => !e.endsCycle)) = some (0x80, true) ∧
      (1 : Sid).toNat ≤ cycleState.cfg.nProbes + 2 ∧ (3 : Sid).toNat ≤ cycleState.cfg.nProbes + 2 :=
  ⟨cycleState_inv, by decide, by decide, by decide +kernel, by decide, by decide⟩

theorem witness_EveryAnsweredCycleEnds :
    cycleState.Inv ∧ cycleState.seqWord = 0x30 ∧ cycleState.pidx = 0 ∧
      11 * cycleState.cfg.nProbes ≤ cycleState.busIn.length ∧ 49 ≤ cycleState.pinIn.length ∧
      cycleState.cfg.nProbes + 2 ≤ cycleState.persIn.length ∧
      cycleState.cfg.nProbes + 49 ≤ cycleState.dlyIn :=
  ⟨cycleState_inv, by decide⟩

/-- A startup that will be answered. -/
def startState : State := { State.reset with busIn := List.replicate 3 busOk }

theorem startState_inv : startState.Inv where
  wordDefined := ⟨.initReset, by decide⟩
  pidxRange := by decide
  eidxRange := by decide
  eidxFull := by decide
  bcntRange := by decide
  kRange := by decide
  sumBySamples := by decide
  sumRange := by decide
  faultFlag := by decide
  faultCodeSet := by decide
  addrLength := by decide
  eidxBeforeEnum := by decide
  eidxDuringEnum := by decide
  bcntBeforeByte := by decide
  bcntAtCheck := by decide
  kDuringBatch := by decide
  kAtConvert := by decide
  sumBeforeSample := by decide
  pidxAtRest := by decide
  tempReady := by decide
  dustReady := by decide
  humReady := by decide
  faultSidClear := by decide
  faultSidRange := by decide

theorem witness_AnsweredStartupEnds :
    startState.Inv ∧ startState.seqWord = 0x00 ∧ startState.cfg.nProbes + 1 ≤ startState.busIn.length :=
  ⟨startState_inv, by decide⟩

/-- One probe's leg up to its insert: an all-zero frame, which the default CRC accepts (R292). -/
def legState : State := { at' 3 0 with busIn := List.replicate 11 busOk, persIn := [⟨false⟩], dlyIn := 1 }

/-- The run's trace ends with the insert, so the events before it are the rest of the trace. -/
theorem witness_EveryRecordCarriesAFreshValue :
    legState.seqWord = 0x30 ∧
      after (runSteps 14 legState) (fun t => (newEvents legState t).drop 12) =
        some [.call (.insertReading 1 1 0) (.status .ok)] := by decide +kernel

/-- An accepted frame of the default CRC, at the last probe. -/
theorem witness_SingleBitErrorsAreRejected :
    { at' 5 2 with pidx := 1, sp := frame1 }.cfg.crc = .oneWire ∧
      crcMatch { at' 5 2 with pidx := 1, sp := frame1 } = true ∧
      { at' 5 2 with pidx := 1, sp := frame1 }.pidx.toNat < (at' 5 2).cfg.nProbes := by decide +kernel

/-- The frame of the most negative temperature. -/
theorem witness_TemperatureRoundTrip :
    (-32768 : Int) ≤ -32768 ∧ (-32768 : Int) ≤ 32767 ∧
      (0x00 : Byte) = BitVec.ofInt 8 (-32768 % 65536 % 256) ∧
      (0x80 : Byte) = BitVec.ofInt 8 (-32768 % 65536 / 256) ∧
      (0x5F : Byte) = crc8 Config.normative #v[0x00, 0x80, 0x4B, 0x46, 0x7F, 0xFF, 0x0C, 0x10] := by
  decide +kernel

end Sys2Proof.Tests
end

section
/-! Proofs of O5 and O40: a step is the decoded micro-operation, and what it adds to the trace is at most its
one call followed by diagnostic events. -/

namespace Sys2Proof.Machine

/-! ## The decoded micro-operation -/

/-- The second case of `step_cases`, a reserved word, is excluded by the word's decoding. -/
theorem step_of_decode {s : State} {i : Instr} (h : decode (.seq s.seqWord) = .ok i) :
    step s = exec i s := by
  obtain ⟨j, hj, hs⟩ | ⟨e, he, _⟩ := step_cases s
  · rw [h] at hj
    cases hj
    exact hs
  · rw [h] at he
    cases he

/-- Settles O5: the obligation's word `st ++ ph` is the state's sequencing word. -/
theorem stepRunsTheDecodedMicroOperation : Obligations.StepRunsTheDecodedMicroOperation :=
  fun _ _ h => step_of_decode h

/-! ## The pending call of a phase -/

/-- The phase table read the other way: each of its rows decodes (converse of `phase_of_decode`). -/
theorem decode_of_phase {s : State} {i : Instr} (h : (s.st, s.ph, i) ∈ phaseTable) :
    decode (.seq s.seqWord) = .ok i := by
  have rows : ∀ row ∈ phaseTable, decode (.seq (packSeq row.1 row.2.1)) = .ok row.2.2 := by decide
  simpa only [State.seqWord] using rows _ h

/-- The pending call in state `x` and phase `y` is the one of the micro-operation the table names there. -/
theorem callOf_of_phase {s : State} {x y : BitVec 4} (i : Instr) (hst : s.st = x) (hph : s.ph = y)
    (hrow : (x, y, i) ∈ phaseTable := by decide) : callOf s = callOfInstr i s :=
  callOf_eq (decode_of_phase (by rwa [hst, hph]))

theorem callOf_startConversion {s : State} {adr : Address} (hst : s.st = 3) (hph : s.ph = 0)
    (hadr : s.addr[s.pidx.toNat]? = some adr) : callOf s = some (.transaction s.cfg.cmdConvert adr) :=
  (callOf_of_phase .startConversion hst hph).trans (congrArg (Option.map _) hadr)

theorem callOf_rtCmd {s : State} {adr : Address} (hst : s.st = 5) (hph : s.ph = 0)
    (hadr : s.addr[s.pidx.toNat]? = some adr) :
    callOf s = some (.transaction s.cfg.cmdReadScratchpad adr) :=
  (callOf_of_phase .rtCmd hst hph).trans (congrArg (Option.map _) hadr)

/-- No call is pending at a reserved word. -/
theorem callOf_reserved {s : State} {e : DecodeError} (h : decode (.seq s.seqWord) = .error e) :
    callOf s = none := by
  simp [callOf, h]

/-- The probe advance emits nothing. -/
@[simp] theorem State.advance_trace (s : State) : s.advance.trace = s.trace := by
  obtain ⟨_, h⟩ | ⟨_, h⟩ := advance_cases s <;> rw [h]

/-! ## What one step adds to the trace -/

/-- The diagnostic events of one step: none, one of a kind that is raised alone, or the pair of a failed
emitter write (R254, R256, R266). -/
def StepDiags (diags : List Event) : Prop :=
  diags = [] ∨ (∃ sid kind, diags = [.diag sid kind] ∧ kind ∈ [1#4, 2#4, 3#4, 6#4, 8#4]) ∨
    (∃ sid, diags = [.diag sid 5, .diag sid 7])

theorem StepDiags.nil : StepDiags [] := .inl rfl

theorem StepDiags.single {sid : Sid} {kind : BitVec 4}
    (hkind : kind ∈ [1#4, 2#4, 3#4, 6#4, 8#4] := by decide) : StepDiags [.diag sid kind] :=
  .inr (.inl ⟨sid, kind, rfl, hkind⟩)

theorem StepDiags.failedWrite {sid : Sid} : StepDiags [.diag sid 5, .diag sid 7] :=
  .inr (.inr ⟨sid, rfl⟩)

/-- From `s` to `t` the trace grows by the pending call, or by none where none is pending or the step waits,
and then by the diagnostic events of one step. -/
def AddsAtMostItsCall (s t : State) : Prop :=
  ∃ calls diags : List Event, t.trace = s.trace ++ calls ++ diags ∧
    ((∃ req res, callOf s = some req ∧ calls = [.call req res]) ∨
      (calls = [] ∧ (callOf s = none ∨ t = s))) ∧
    StepDiags diags

variable {s t : State} {diags : List Event}

theorem AddsAtMostItsCall.of_call {req : Request} {res : Result} (hcall : callOf s = some req)
    (htrace : t.trace = s.trace ++ .call req res :: diags) (hdiags : StepDiags diags) :
    AddsAtMostItsCall s t :=
  ⟨[.call req res], diags, by simp [htrace], .inl ⟨req, res, hcall, rfl⟩, hdiags⟩

theorem AddsAtMostItsCall.of_internal (hcall : callOf s = none)
    (htrace : t.trace = s.trace ++ diags) (hdiags : StepDiags diags) : AddsAtMostItsCall s t :=
  ⟨[], diags, by simp [htrace], .inr ⟨rfl, .inl hcall⟩, hdiags⟩

theorem AddsAtMostItsCall.of_silent (hcall : callOf s = none) (htrace : t.trace = s.trace) :
    AddsAtMostItsCall s t :=
  .of_internal hcall (by simp [htrace]) .nil

theorem AddsAtMostItsCall.of_wait : AddsAtMostItsCall s s :=
  ⟨[], [], by simp, .inr ⟨rfl, .inr rfl⟩, .nil⟩

open AddsAtMostItsCall in
/-- Each row of the transition table (R225) names its call and its diagnostic events. -/
theorem Transition.addsAtMostItsCall (h : Transition s t) : AddsAtMostItsCall s t := by
  cases h with
  | waits _ _ => exact of_wait
  | reserved hd => exact of_silent (callOf_reserved hd) rfl
  | initResetOk hst hph => exact of_call (callOf_of_phase .initReset hst hph) rfl .nil
  | initResetNoDevices hst hph => exact of_call (callOf_of_phase .initReset hst hph) rfl .single
  | initResetDataError hst hph => exact of_call (callOf_of_phase .initReset hst hph) rfl .single
  | initEnumMore hst hph => exact of_call (callOf_of_phase .initEnum hst hph) rfl .nil
  | initEnumLast hst hph => exact of_call (callOf_of_phase .initEnum hst hph) rfl .nil
  | initEnumNone hst hph => exact of_call (callOf_of_phase .initEnum hst hph) rfl .single
  | initEnumFew hst hph => exact of_call (callOf_of_phase .initEnum hst hph) rfl .single
  | idle hst hph => exact of_silent (callOf_of_phase .idle hst hph) rfl
  | startConversion hst hph _ hadr => exact of_call (callOf_startConversion hst hph hadr) rfl .nil
  | awaitConversion hst hph => exact of_call (callOf_of_phase .awaitConversion hst hph) rfl .nil
  | rtCmd hst hph _ hadr => exact of_call (callOf_rtCmd hst hph hadr) rfl .nil
  | rtByteMore _ hst hph => exact of_call (callOf_of_phase .rtByte hst hph) rfl .nil
  | rtByteLast _ hst hph => exact of_call (callOf_of_phase .rtByte hst hph) rfl .nil
  | rtCheckMatch hst hph => exact of_silent (callOf_of_phase .rtCheck hst hph) rfl
  | rtCheckHalt hst hph => exact of_internal (callOf_of_phase .rtCheck hst hph) rfl .single
  | rtCheckRecover hst hph =>
    exact of_internal (callOf_of_phase .rtCheck hst hph) (State.advance_trace _) .single
  | rtPersistOk hst hph =>
    exact of_call (callOf_of_phase .rtPersist hst hph) (State.advance_trace _) .nil
  | rtPersistHalt hst hph => exact of_call (callOf_of_phase .rtPersist hst hph) rfl .single
  | rtPersistRecover hst hph =>
    exact of_call (callOf_of_phase .rtPersist hst hph) (State.advance_trace _) .single
  | dsLedOnOk hst hph => exact of_call (callOf_of_phase .dsLedOn hst hph) rfl .nil
  | dsLedOnHalt hst hph => exact of_call (callOf_of_phase .dsLedOn hst hph) rfl .failedWrite
  | dsLedOnRecover hst hph => exact of_call (callOf_of_phase .dsLedOn hst hph) rfl .failedWrite
  | dsHoldRise hst hph => exact of_call (callOf_of_phase .dsHoldRise hst hph) rfl .nil
  | dsSample hst hph => exact of_call (callOf_of_phase .dsSample hst hph) rfl .nil
  | dsHoldPulse hst hph => exact of_call (callOf_of_phase .dsHoldPulse hst hph) rfl .nil
  | dsLedOffOk hst hph => exact of_call (callOf_of_phase .dsLedOff hst hph) rfl .nil
  | dsLedOffHalt hst hph => exact of_call (callOf_of_phase .dsLedOff hst hph) rfl .failedWrite
  | dsLedOffRecover hst hph => exact of_call (callOf_of_phase .dsLedOff hst hph) rfl .failedWrite
  | dsHoldSettleMore hst hph => exact of_call (callOf_of_phase .dsHoldSettle hst hph) rfl .nil
  | dsHoldSettleLast hst hph => exact of_call (callOf_of_phase .dsHoldSettle hst hph) rfl .nil
  | dsConvert hst hph => exact of_silent (callOf_of_phase .dsConvert hst hph) rfl
  | dsPersistOk hst hph => exact of_call (callOf_of_phase .dsPersist hst hph) rfl .nil
  | dsPersistHalt hst hph => exact of_call (callOf_of_phase .dsPersist hst hph) rfl .single
  | dsPersistRecover hst hph => exact of_call (callOf_of_phase .dsPersist hst hph) rfl .single
  | hmSample hst hph => exact of_call (callOf_of_phase .hmSample hst hph) rfl .nil
  | hmPersistOk hst hph => exact of_call (callOf_of_phase .hmPersist hst hph) rfl .nil
  | hmPersistHalt hst hph => exact of_call (callOf_of_phase .hmPersist hst hph) rfl .single
  | hmPersistRecover hst hph => exact of_call (callOf_of_phase .hmPersist hst hph) rfl .single
  | sleep hst hph => exact of_call (callOf_of_phase .sleep hst hph) rfl .nil
  | fault hst hph => exact of_silent (callOf_of_phase .fault hst hph) rfl

/-- Settles O40: a step is a transition of the table, and each of those adds at most its call. -/
theorem stepMakesAtMostItsOneCall : Obligations.StepMakesAtMostItsOneCall :=
  fun _ _ h => (transition_of_step h).addsAtMostItsCall

end Sys2Proof.Machine
end

section
/-! Proofs of O44, O43, O45 and O1: the invariant phase by phase, its preservation by every transition of the
table, and its base case, the state after reset. -/

namespace Sys2Proof.Machine

variable {s t : State}

/-! ## The invariant, phase by phase -/

/-- The clauses of the invariant that hold in every phase. -/
structure State.Ranges (s : State) : Prop where
  pidxRange : s.pidx.toNat < s.cfg.nProbes
  eidxRange : s.eidx.toNat ≤ s.cfg.nProbes
  bcntRange : s.bcnt.toNat ≤ 9
  kRange : s.k.toNat ≤ 16
  sumBySamples : s.sum.toNat ≤ 1023 * s.k.toNat + 1023
  sumRange : s.sum.toNat ≤ 16368
  addrLength : s.addr.length = s.cfg.nProbes
  faultSidRange : s.faultSid.toNat ≤ s.cfg.nProbes + 2

/-- The fault registers as reset leaves them (R42, R47). -/
def State.NoFault (s : State) : Prop := s.fault = false ∧ s.faultCode = 0 ∧ s.faultSid = 0

/-- Startup is over: no fault, and every entry of `ADDR` is filled (R35). -/
def State.Running (s : State) : Prop := s.NoFault ∧ s.eidx.toNat = s.cfg.nProbes

/-- `val` is a value of this kind that may be sent (R41, R115). -/
def State.Holds (s : State) (kind : Vkind) : Prop := s.vkind = kind ∧ valueOccurs kind s.vnum = true

/-- What the invariant asks, beside the ranges, of a state about to run micro-operation `i`. -/
def State.PhaseInv (s : State) : Instr → Prop
  | .initReset => s.NoFault ∧ s.eidx = 0 ∧ s.pidx = 0
  | .initEnum => s.NoFault ∧ s.eidx.toNat < s.cfg.nProbes ∧ s.pidx = 0
  | .startConversion | .awaitConversion | .rtCmd => s.Running
  | .rtByte => s.Running ∧ s.bcnt.toNat < 9
  | .rtCheck => s.Running ∧ s.bcnt.toNat = 9
  | .rtPersist => s.Running ∧ s.Holds 1
  | .dsLedOn | .dsHoldRise | .dsSample =>
    s.Running ∧ s.pidx = 0 ∧ s.k.toNat < 16 ∧ s.sum.toNat ≤ 1023 * s.k.toNat
  | .dsHoldPulse | .dsLedOff | .dsHoldSettle => s.Running ∧ s.pidx = 0 ∧ s.k.toNat < 16
  | .dsConvert => s.Running ∧ s.pidx = 0 ∧ s.k.toNat = 16
  | .dsPersist => s.Running ∧ s.pidx = 0 ∧ s.Holds 2
  | .idle | .hmSample | .sleep => s.Running ∧ s.pidx = 0
  | .hmPersist => s.Running ∧ s.pidx = 0 ∧ s.Holds 3
  | .fault => s.fault = true ∧ s.faultCode ≠ 0
  | .resetBus | .enumerateNext _ | .transaction _ _ | .readByte | .digitalWrite _ | .analogRead _
  | .insertReading _ _ _ | .delay _ | .diag _ _ => False

theorem seqWord_of_phase {x y : BitVec 4} (hst : s.st = x) (hph : s.ph = y) :
    s.seqWord = packSeq x y := by
  rw [State.seqWord, hst, hph]

theorem State.Inv.ranges (h : s.Inv) : s.Ranges := { h with }

theorem State.Inv.noFault (h : s.Inv) (hst : s.st ≠ 9) : s.NoFault :=
  ⟨by simpa using mt h.faultFlag.mp hst, by simpa using mt h.faultCodeSet.mp hst, h.faultSidClear hst⟩

theorem State.Inv.running {x : BitVec 4} (h : s.Inv) (hst : s.st = x)
    (hx : x ≠ 0 ∧ x ≠ 1 ∧ x ≠ 9 := by decide) : s.Running := by
  subst hst
  obtain ⟨h0, h1, h9⟩ := hx
  exact ⟨h.noFault h9, h.eidxFull h0 h1 h9⟩

theorem State.Inv.pidxZero {x : BitVec 4} (h : s.Inv) (hst : s.st = x)
    (hx : x = 0 ∨ x = 1 ∨ x = 2 ∨ x = 6 ∨ x = 7 ∨ x = 8 := by decide) : s.pidx = 0 :=
  h.pidxAtRest (by rwa [hst])

theorem State.Inv.k_lt {y : BitVec 4} (h : s.Inv) (hst : s.st = 6) (hph : s.ph = y)
    (hy : y.toNat ≤ 5 := by decide) : s.k.toNat < 16 :=
  h.kDuringBatch hst (by rwa [hph])

theorem State.Inv.sum_le {y : BitVec 4} (h : s.Inv) (hst : s.st = 6) (hph : s.ph = y)
    (hy : y.toNat ≤ 2 := by decide) : s.sum.toNat ≤ 1023 * s.k.toNat :=
  h.sumBeforeSample hst (by rwa [hph])

/-- The invariant from the ranges and what the micro-operation of the phase asks. With `st` and `ph` known, each
clause of the invariant is void, or is part of what that micro-operation asks. -/
theorem State.Inv.of_phase (i : Instr) (x y : BitVec 4) (hst : s.st = x) (hph : s.ph = y)
    (hr : s.Ranges) (h : s.PhaseInv i) (hrow : (x, y, i) ∈ phaseTable := by decide) : s.Inv := by
  have hd : ∃ i, decode (.seq s.seqWord) = .ok i := ⟨i, decode_of_phase (by rwa [hst, hph])⟩
  have hw := seqWord_of_phase hst hph
  cases i <;>
    simp only [phaseTable, List.mem_cons, List.not_mem_nil, Prod.mk.injEq, reduceCtorEq, and_false,
      and_true, or_false, false_or] at hrow
  all_goals
    obtain ⟨rfl, rfl⟩ := hrow
    simp only [State.PhaseInv, State.Running, State.NoFault, State.Holds, BitVec.ofNat_eq_ofNat] at h
    refine { hr with
      wordDefined := hd, eidxFull := ?_, faultFlag := ?_, faultCodeSet := ?_, eidxBeforeEnum := ?_
      eidxDuringEnum := ?_, bcntBeforeByte := ?_, bcntAtCheck := ?_, kDuringBatch := ?_
      kAtConvert := ?_, sumBeforeSample := ?_, pidxAtRest := ?_, tempReady := ?_, dustReady := ?_
      humReady := ?_, faultSidClear := ?_ } <;> simp [hst, hph, hw, packSeq, h]

/-! ## Ids and values in their ranges -/

theorem nProbes_bounds (cfg : Config) : 1 ≤ cfg.nProbes ∧ cfg.nProbes ≤ 253 :=
  ⟨Nat.le_add_left .., cfg.probesPred.isLt⟩

theorem toNat_sidTemp {k : BitVec 8} {cfg : Config} (hk : k.toNat < cfg.nProbes) :
    (sidTemp k).toNat = k.toNat + 1 :=
  toNat_narrow (by have := nProbes_bounds cfg; omega)

theorem toNat_sidDust (cfg : Config) : (sidDust cfg).toNat = cfg.nProbes + 1 := by
  have := nProbes_bounds cfg
  rw [sidDust, BitVec.toNat_ofNat]
  omega

theorem toNat_sidHum (cfg : Config) : (sidHum cfg).toNat = cfg.nProbes + 2 := by
  have := nProbes_bounds cfg
  rw [sidHum, BitVec.toNat_ofNat]
  omega

theorem sidTemp_le {k : BitVec 8} {cfg : Config} (hk : k.toNat < cfg.nProbes) :
    (sidTemp k).toNat ≤ cfg.nProbes + 2 := by
  rw [toNat_sidTemp hk]
  omega

theorem sidDust_le (cfg : Config) : (sidDust cfg).toNat ≤ cfg.nProbes + 2 := by
  rw [toNat_sidDust]
  omega

/-- A numerator in the 39-bit range is held exactly (R115). -/
theorem toInt_vnumOf {n : Int} (hlo : -2 ^ 38 ≤ n) (hhi : n < 2 ^ 38) : (vnumOf n).toInt = n := by
  rw [vnumOf, BitVec.toInt_ofInt, Int.bmod_eq_of_le] <;> omega

theorem decodeRaw_bounds (b0 b1 : Byte) : -32768 ≤ decodeRaw b0 b1 ∧ decodeRaw b0 b1 ≤ 32767 := by
  have hlo := BitVec.le_toInt (rawField b0 b1)
  have hhi := BitVec.toInt_lt (x := rawField b0 b1)
  simp only [decodeRaw]
  omega

theorem toInt_vnumOf_decodeRaw (b0 b1 : Byte) : (vnumOf (decodeRaw b0 b1)).toInt = decodeRaw b0 b1 := by
  have := decodeRaw_bounds b0 b1
  exact toInt_vnumOf (by omega) (by omega)

theorem valueOccurs_temp (b0 b1 : Byte) : valueOccurs 1 (vnumOf (decodeRaw b0 b1)) = true := by
  simpa [valueOccurs, toInt_vnumOf_decodeRaw] using decodeRaw_bounds b0 b1

theorem dustNum_bounds (S : Nat) : 0 ≤ dustNum S ∧ dustNum S ≤ 1424016 := by
  unfold dustNum
  split_ifs <;> omega

theorem valueOccurs_dust (S : Nat) : valueOccurs 2 (vnumOf (dustNum S)) = true := by
  have hb := dustNum_bounds S
  have hv : (vnumOf (dustNum S)).toInt = dustNum S := toInt_vnumOf (by omega) (by omega)
  simpa [valueOccurs, hv] using hb

/-- The quadratic of R203 is increasing in the count, which is at most 1023. -/
theorem humNum_bounds {r : Nat} (hr : r ≤ 1023) :
    -7892921718 ≤ humNum r ∧ humNum r ≤ 160577316702 := by
  have hsq : r * r ≤ 1023 * 1023 := Nat.mul_le_mul hr hr
  have heq : humNum r = 31325 * (r * r : Nat) + 132637065 * r - 7892921718 := by
    simp only [humNum, Nat.cast_mul, mul_assoc]
  omega

theorem valueOccurs_hum (r : Count) : valueOccurs 3 (vnumOf (humNum r.toNat)) = true := by
  have hb := humNum_bounds (Nat.le_of_lt_succ r.isLt)
  have hv : (vnumOf (humNum r.toNat)).toInt = humNum r.toNat := toInt_vnumOf (by omega) (by omega)
  simpa [valueOccurs, hv] using hb

/-! ## Every transition keeps the invariant -/

/-- In `FAULT` the invariant asks for the flag and a code of R116 that is not `NONE` (R42, R48). -/
theorem State.Inv.of_fault (e : ErrorKind) (hr : s.Ranges) (hst : s.st = 9) (hph : s.ph = 0)
    (hflag : s.fault = true) (hcode : s.faultCode = errorCode e) : s.Inv :=
  .of_phase .fault 9 0 hst hph hr ⟨hflag, hcode ▸ by cases e <;> decide⟩

/-- The probe advance keeps the invariant (R218): the next probe is in range, or the batch starts clear. -/
theorem State.Running.advance_inv (hrun : s.Running) (hr : s.Ranges) : s.advance.Inv := by
  have hn := nProbes_bounds s.cfg
  obtain ⟨hlt, heq⟩ | ⟨_, heq⟩ := advance_cases s <;> rw [heq]
  · have hp : (BitVec.ofNat 8 (s.pidx.toNat + 1)).toNat = s.pidx.toNat + 1 := by
      rw [BitVec.toNat_ofNat]
      omega
    exact .of_phase .startConversion 3 0 rfl rfl { hr with pidxRange := hp.trans_lt hlt } hrun
  · exact .of_phase .dsLedOn 6 0 rfl rfl
      { hr with
        pidxRange := hn.1, kRange := Nat.zero_le _, sumBySamples := Nat.zero_le _
        sumRange := Nat.zero_le _ }
      ⟨hrun, rfl, Nat.zero_lt_succ _, Nat.zero_le _⟩

/-- Each row of the transition table (R225) gives what the invariant asks in the phase it leads to. -/
theorem Transition.keeps_inv (h : Transition s t) (hs : s.Inv) : t.Inv := by
  have hr := hs.ranges
  have hn := nProbes_bounds s.cfg
  cases h with
  | waits | fault => exact hs
  | reserved hd =>
    obtain ⟨i, hi⟩ := hs.wordDefined
    exact absurd (hi.symm.trans hd) nofun
  -- startup
  | initResetOk hst hph =>
    have he : s.eidx.toNat < s.cfg.nProbes := by
      rw [hs.eidxBeforeEnum hst]
      exact hn.1
    exact .of_phase .initEnum 1 0 rfl hph { hr with } ⟨hs.noFault (by simp [hst]), he, hs.pidxZero hst⟩
  | initEnumMore hst hph _ _ _ hmore =>
    have he := hs.eidxDuringEnum hst
    have hnext : (narrow 8 (s.eidx.toNat + 1)).toNat = s.eidx.toNat + 1 := toNat_narrow (by omega)
    have hlt : (narrow 8 (s.eidx.toNat + 1)).toNat < s.cfg.nProbes := by omega
    exact .of_phase .initEnum 1 0 hst hph
      { hr with eidxRange := hlt.le, addrLength := (List.length_set ..).trans hr.addrLength }
      ⟨hs.noFault (by simp [hst]), hlt, hs.pidxZero hst⟩
  | initEnumLast hst hph _ _ _ hlast =>
    have hnext : (narrow 8 (s.eidx.toNat + 1)).toNat = s.cfg.nProbes :=
      (toNat_narrow (by omega)).trans hlast
    exact .of_phase .idle 2 0 rfl hph
      { hr with eidxRange := hnext.le, addrLength := (List.length_set ..).trans hr.addrLength }
      ⟨⟨hs.noFault (by simp [hst]), hnext⟩, hs.pidxZero hst⟩
  | idle hst hph => exact .of_phase .startConversion 3 0 rfl hph { hr with } (hs.running hst)
  -- the temperature leg
  | startConversion hst hph => exact .of_phase .awaitConversion 4 0 rfl hph { hr with } (hs.running hst)
  | awaitConversion hst => exact .of_phase .rtCmd 5 0 rfl rfl { hr with } (hs.running hst)
  | rtCmd hst =>
    exact .of_phase .rtByte 5 1 hst rfl { hr with bcntRange := Nat.zero_le _ }
      ⟨hs.running hst, Nat.zero_lt_succ _⟩
  | rtByteMore hb hst hph =>
    have hnext : (BitVec.ofNat 4 (s.bcnt.toNat + 1)).toNat < 9 := by
      rw [BitVec.toNat_ofNat]
      omega
    exact .of_phase .rtByte 5 1 hst hph { hr with bcntRange := hnext.le } ⟨hs.running hst, hnext⟩
  | rtByteLast _ hst _ _ hlast =>
    have hnext : (BitVec.ofNat 4 (s.bcnt.toNat + 1)).toNat = 9 := by rw [hlast]; rfl
    exact .of_phase .rtCheck 5 2 hst rfl { hr with bcntRange := hnext.le } ⟨hs.running hst, hnext⟩
  | rtCheckMatch hst =>
    exact .of_phase .rtPersist 5 3 hst rfl { hr with } ⟨hs.running hst, rfl, valueOccurs_temp _ _⟩
  | rtCheckRecover hst | rtPersistOk hst | rtPersistRecover hst =>
    exact State.Running.advance_inv (hs.running hst) { hr with }
  -- the dust leg
  | dsLedOnOk hst hph =>
    exact .of_phase .dsHoldRise 6 1 hst rfl { hr with }
      ⟨hs.running hst, hs.pidxZero hst, hs.k_lt hst hph, hs.sum_le hst hph⟩
  | dsHoldRise hst hph =>
    exact .of_phase .dsSample 6 2 hst rfl { hr with }
      ⟨hs.running hst, hs.pidxZero hst, hs.k_lt hst hph, hs.sum_le hst hph⟩
  | @dsSample a _ hst hph =>
    have hk := hs.k_lt hst hph
    have hsum := hs.sum_le hst hph
    have hadc := a.adc.isLt
    have hnext : (narrow 14 (s.sum.toNat + a.adc.toNat)).toNat = s.sum.toNat + a.adc.toNat :=
      toNat_narrow (by omega)
    have hnew : (narrow 14 (s.sum.toNat + a.adc.toNat)).toNat ≤ 1023 * s.k.toNat + 1023 := by omega
    exact .of_phase .dsHoldPulse 6 3 hst rfl
      { hr with sumBySamples := hnew, sumRange := hnew.trans (by omega) }
      ⟨hs.running hst, hs.pidxZero hst, hk⟩
  | dsHoldPulse hst hph =>
    exact .of_phase .dsLedOff 6 4 hst rfl { hr with } ⟨hs.running hst, hs.pidxZero hst, hs.k_lt hst hph⟩
  | dsLedOffOk hst hph =>
    exact .of_phase .dsHoldSettle 6 5 hst rfl { hr with }
      ⟨hs.running hst, hs.pidxZero hst, hs.k_lt hst hph⟩
  | dsHoldSettleMore hst hph _ hmore =>
    have hk := hs.k_lt hst hph
    have hsum := hr.sumBySamples
    have hnext : (narrow 5 (s.k.toNat + 1)).toNat = s.k.toNat + 1 := toNat_narrow (by omega)
    have hnew : s.sum.toNat ≤ 1023 * (narrow 5 (s.k.toNat + 1)).toNat := by omega
    exact .of_phase .dsLedOn 6 0 hst rfl
      { hr with kRange := hnext.trans_le hk, sumBySamples := Nat.le_add_right_of_le hnew }
      ⟨hs.running hst, hs.pidxZero hst, hnext.trans_lt (by omega), hnew⟩
  | dsHoldSettleLast hst hph _ hlast =>
    have hsum := hr.sumRange
    have hnext : (narrow 5 (s.k.toNat + 1)).toNat = 16 := (toNat_narrow (by omega)).trans hlast
    have hnew : s.sum.toNat ≤ 1023 * (narrow 5 (s.k.toNat + 1)).toNat + 1023 := by omega
    exact .of_phase .dsConvert 6 6 hst rfl { hr with kRange := hnext.le, sumBySamples := hnew }
      ⟨hs.running hst, hs.pidxZero hst, hnext⟩
  | dsConvert hst =>
    exact .of_phase .dsPersist 6 7 hst rfl { hr with }
      ⟨hs.running hst, hs.pidxZero hst, rfl, valueOccurs_dust _⟩
  | dsLedOnRecover hst | dsLedOffRecover hst | dsPersistOk hst | dsPersistRecover hst =>
    exact .of_phase .hmSample 7 0 rfl rfl { hr with } ⟨hs.running hst, hs.pidxZero hst⟩
  -- the humidity leg and the idle delay
  | hmSample hst =>
    exact .of_phase .hmPersist 7 1 hst rfl { hr with }
      ⟨hs.running hst, hs.pidxZero hst, rfl, valueOccurs_hum _⟩
  | hmPersistOk hst | hmPersistRecover hst =>
    exact .of_phase .sleep 8 0 rfl rfl { hr with } ⟨hs.running hst, hs.pidxZero hst⟩
  | sleep hst => exact .of_phase .startConversion 3 0 rfl rfl { hr with } (hs.running hst)
  -- the entries to `FAULT`
  | initResetNoDevices | initEnumNone =>
    exact .of_fault .noDevicesFound { hr with faultSidRange := Nat.zero_le _ } rfl rfl rfl rfl
  | initResetDataError =>
    exact .of_fault .busDataError { hr with faultSidRange := Nat.zero_le _ } rfl rfl rfl rfl
  | initEnumFew =>
    exact .of_fault .insufficientDevices { hr with faultSidRange := Nat.zero_le _ } rfl rfl rfl rfl
  | rtCheckHalt =>
    exact .of_fault .crcMismatch { hr with faultSidRange := sidTemp_le hr.pidxRange } rfl rfl rfl rfl
  | rtPersistHalt =>
    exact .of_fault .persistenceError { hr with faultSidRange := sidTemp_le hr.pidxRange } rfl rfl rfl rfl
  | dsLedOnHalt | dsLedOffHalt =>
    exact .of_fault .batchCollectionError { hr with faultSidRange := sidDust_le _ } rfl rfl rfl rfl
  | dsPersistHalt =>
    exact .of_fault .persistenceError { hr with faultSidRange := sidDust_le _ } rfl rfl rfl rfl
  | hmPersistHalt =>
    exact .of_fault .persistenceError { hr with faultSidRange := (toNat_sidHum _).le } rfl rfl rfl rfl

/-- Settles O44. -/
theorem stepKeepsTheInvariant : Obligations.StepKeepsTheInvariant :=
  fun _ _ hs h => (transition_of_step h).keeps_inv hs

/-! ## Reset and reachable states -/

theorem State.resetWith_inv (cfg : Config) (strap : Policy) : (State.resetWith cfg strap).Inv :=
  .of_phase .initReset 0 0 rfl rfl
    { pidxRange := (nProbes_bounds cfg).1
      eidxRange := Nat.zero_le _
      bcntRange := Nat.zero_le _
      kRange := Nat.zero_le _
      sumBySamples := Nat.zero_le _
      sumRange := Nat.zero_le _
      addrLength := List.length_replicate
      faultSidRange := Nat.zero_le _ }
    ⟨⟨rfl, rfl, rfl⟩, rfl, rfl⟩

/-- Settles O43. -/
theorem resetMeetsTheInvariant : Obligations.ResetMeetsTheInvariant :=
  ⟨State.resetWith_inv, State.resetWith_inv _ _⟩

/-- The invariant does not speak of the answers to come. -/
theorem State.Inv.withAnswers (h : s.Inv) (bus : List BusAnswer) (pin : List PinAnswer)
    (pers : List PersAnswer) (dly : Nat) : (s.withAnswers bus pin pers dly).Inv :=
  { h with }

theorem Reachable.inv (h : Reachable s) : s.Inv := by
  induction h with
  | reset cfg strap _ => exact State.resetWith_inv cfg strap
  | answers s bus pin pers dly _ ih => exact ih.withAnswers bus pin pers dly
  | step s t _ hstep ih => exact (transition_of_step hstep).keeps_inv ih

/-- Settles O45: R48 is part of the invariant. -/
theorem reachableStatesMeetR48 : Obligations.ReachableStatesMeetR48 :=
  fun _ h => h.inv.toRuleR48

/-- Settles O1. -/
theorem resetLeavesTheSpecifiedRegisters : Obligations.ResetLeavesTheSpecifiedRegisters :=
  fun _ _ => ⟨rfl, rfl, rfl, rfl, rfl, rfl, rfl, rfl, rfl, rfl, rfl, rfl, rfl, List.length_replicate, rfl⟩

end Sys2Proof.Machine
end

section
/-! Proof of O42: which rows of the transition table write each register. -/

namespace Sys2Proof.Machine

variable {s t : State}

/-! ## What the probe advance leaves unchanged (R218) -/

@[simp] theorem State.advance_cfg (s : State) : s.advance.cfg = s.cfg := by
  obtain ⟨_, h⟩ | ⟨_, h⟩ := advance_cases s <;> rw [h]

@[simp] theorem State.advance_pol (s : State) : s.advance.pol = s.pol := by
  obtain ⟨_, h⟩ | ⟨_, h⟩ := advance_cases s <;> rw [h]

@[simp] theorem State.advance_eidx (s : State) : s.advance.eidx = s.eidx := by
  obtain ⟨_, h⟩ | ⟨_, h⟩ := advance_cases s <;> rw [h]

@[simp] theorem State.advance_addr (s : State) : s.advance.addr = s.addr := by
  obtain ⟨_, h⟩ | ⟨_, h⟩ := advance_cases s <;> rw [h]

@[simp] theorem State.advance_sp (s : State) : s.advance.sp = s.sp := by
  obtain ⟨_, h⟩ | ⟨_, h⟩ := advance_cases s <;> rw [h]

@[simp] theorem State.advance_bcnt (s : State) : s.advance.bcnt = s.bcnt := by
  obtain ⟨_, h⟩ | ⟨_, h⟩ := advance_cases s <;> rw [h]

@[simp] theorem State.advance_vkind (s : State) : s.advance.vkind = s.vkind := by
  obtain ⟨_, h⟩ | ⟨_, h⟩ := advance_cases s <;> rw [h]

@[simp] theorem State.advance_vnum (s : State) : s.advance.vnum = s.vnum := by
  obtain ⟨_, h⟩ | ⟨_, h⟩ := advance_cases s <;> rw [h]

@[simp] theorem State.advance_fault (s : State) : s.advance.fault = s.fault := by
  obtain ⟨_, h⟩ | ⟨_, h⟩ := advance_cases s <;> rw [h]

@[simp] theorem State.advance_faultCode (s : State) : s.advance.faultCode = s.faultCode := by
  obtain ⟨_, h⟩ | ⟨_, h⟩ := advance_cases s <;> rw [h]

@[simp] theorem State.advance_faultSid (s : State) : s.advance.faultSid = s.faultSid := by
  obtain ⟨_, h⟩ | ⟨_, h⟩ := advance_cases s <;> rw [h]

/-! ## Indexed stores, by what the next state holds -/

theorem readAddr_of_addr_eq_set {i j : BitVec 8} {a : Address} (hi : i.toNat < s.addr.length)
    (haddr : t.addr = s.addr.set i.toNat a) (hj : j ≠ i) : t.readAddr j = s.readAddr j := by
  have hwrite : s.writeAddr i a = some { s with addr := t.addr } := by rw [haddr]; exact if_pos hi
  exact (writeAddr_other hwrite hj :)

theorem readSp_of_sp_eq_set {i j : Nat} {b : Byte} (hi : i < 9) (hsp : t.sp = s.sp.set i b)
    (hj : j ≠ i) : t.readSp j = s.readSp j := by
  have hwrite : s.writeSp i b = some { s with sp := t.sp } := by rw [hsp]; exact dif_pos hi
  exact (writeSp_other hwrite hj :)

/-! ## The writers of each register

In each lemma the rows named are the writers, excluded by the sequencing word, and those that go through the
probe advance; every other row leaves the register alone by definition. -/

theorem Transition.cfg_pol_eq (h : Transition s t) : t.cfg = s.cfg ∧ t.pol = s.pol := by
  cases h with
  | rtCheckRecover | rtPersistOk | rtPersistRecover => simp
  | _ => exact ⟨rfl, rfl⟩

theorem Transition.eidx_addr_eq (h : Transition s t) (hw : s.seqWord ≠ 0x10) :
    t.eidx = s.eidx ∧ t.addr = s.addr := by
  cases h with
  | initEnumMore hst hph | initEnumLast hst hph => exact absurd (seqWord_of_phase hst hph) hw
  | rtCheckRecover | rtPersistOk | rtPersistRecover => simp
  | _ => exact ⟨rfl, rfl⟩

theorem Transition.readAddr_eq (h : Transition s t) {j : BitVec 8} (hj : j ≠ s.eidx) :
    t.readAddr j = s.readAddr j := by
  cases h with
  | initEnumMore _ _ _ _ hi | initEnumLast _ _ _ _ hi => exact readAddr_of_addr_eq_set hi rfl hj
  | rtCheckRecover | rtPersistOk | rtPersistRecover => simp [State.readAddr]
  | _ => rfl

theorem Transition.sp_eq (h : Transition s t) (hw : s.seqWord ≠ 0x51) : t.sp = s.sp := by
  cases h with
  | rtByteMore _ hst hph | rtByteLast _ hst hph => exact absurd (seqWord_of_phase hst hph) hw
  | rtCheckRecover | rtPersistOk | rtPersistRecover => simp
  | _ => rfl

theorem Transition.readSp_eq (h : Transition s t) {j : Nat} (hj : j ≠ s.bcnt.toNat) :
    t.readSp j = s.readSp j := by
  cases h with
  | rtByteMore hb | rtByteLast hb => exact readSp_of_sp_eq_set hb rfl hj
  | rtCheckRecover | rtPersistOk | rtPersistRecover => simp [State.readSp]
  | _ => rfl

theorem Transition.bcnt_eq (h : Transition s t) (hcmd : s.seqWord ≠ 0x50) (hbyte : s.seqWord ≠ 0x51) :
    t.bcnt = s.bcnt := by
  cases h with
  | rtCmd hst hph => exact absurd (seqWord_of_phase hst hph) hcmd
  | rtByteMore _ hst hph | rtByteLast _ hst hph => exact absurd (seqWord_of_phase hst hph) hbyte
  | rtCheckRecover | rtPersistOk | rtPersistRecover => simp
  | _ => rfl

theorem Transition.pidx_eq (h : Transition s t) (hcheck : s.seqWord ≠ 0x52)
    (hpersist : s.seqWord ≠ 0x53) : t.pidx = s.pidx := by
  cases h with
  | rtCheckRecover hst hph => exact absurd (seqWord_of_phase hst hph) hcheck
  | rtPersistOk hst hph | rtPersistRecover hst hph => exact absurd (seqWord_of_phase hst hph) hpersist
  | _ => rfl

theorem Transition.k_eq (h : Transition s t) (hcheck : s.seqWord ≠ 0x52) (hpersist : s.seqWord ≠ 0x53)
    (hsettle : s.seqWord ≠ 0x65) : t.k = s.k := by
  cases h with
  | rtCheckRecover hst hph => exact absurd (seqWord_of_phase hst hph) hcheck
  | rtPersistOk hst hph | rtPersistRecover hst hph => exact absurd (seqWord_of_phase hst hph) hpersist
  | dsHoldSettleMore hst hph | dsHoldSettleLast hst hph =>
    exact absurd (seqWord_of_phase hst hph) hsettle
  | _ => rfl

theorem Transition.sum_eq (h : Transition s t) (hcheck : s.seqWord ≠ 0x52) (hpersist : s.seqWord ≠ 0x53)
    (hsample : s.seqWord ≠ 0x62) : t.sum = s.sum := by
  cases h with
  | rtCheckRecover hst hph => exact absurd (seqWord_of_phase hst hph) hcheck
  | rtPersistOk hst hph | rtPersistRecover hst hph => exact absurd (seqWord_of_phase hst hph) hpersist
  | dsSample hst hph => exact absurd (seqWord_of_phase hst hph) hsample
  | _ => rfl

theorem Transition.val_eq (h : Transition s t) (hcheck : s.seqWord ≠ 0x52)
    (hconvert : s.seqWord ≠ 0x66) (hsample : s.seqWord ≠ 0x70) :
    t.vkind = s.vkind ∧ t.vnum = s.vnum := by
  cases h with
  | rtCheckMatch hst hph => exact absurd (seqWord_of_phase hst hph) hcheck
  | dsConvert hst hph => exact absurd (seqWord_of_phase hst hph) hconvert
  | hmSample hst hph => exact absurd (seqWord_of_phase hst hph) hsample
  | rtCheckRecover | rtPersistOk | rtPersistRecover => simp
  | _ => exact ⟨rfl, rfl⟩

/-- The rows named first are the entries to `FAULT`, whose word is `0x90`. -/
theorem Transition.fault_regs_eq (h : Transition s t) (hw : t.seqWord ≠ 0x90) :
    t.fault = s.fault ∧ t.faultCode = s.faultCode ∧ t.faultSid = s.faultSid := by
  cases h with
  | reserved | initResetNoDevices | initResetDataError | initEnumNone | initEnumFew | rtCheckHalt
  | rtPersistHalt | dsLedOnHalt | dsLedOffHalt | dsPersistHalt | hmPersistHalt =>
    exact absurd (seqWord_of_phase (x := 9) (y := 0) rfl rfl) hw
  | rtCheckRecover | rtPersistOk | rtPersistRecover => simp
  | _ => exact ⟨rfl, rfl, rfl⟩

/-- Settles O42, register by register. -/
theorem registersChangeOnlyByTheirWriters : Obligations.RegistersChangeOnlyByTheirWriters := by
  intro s t hstep
  have h := transition_of_step hstep
  exact ⟨h.cfg_pol_eq.1, h.cfg_pol_eq.2, h.eidx_addr_eq, fun _ => h.readAddr_eq, h.sp_eq,
    fun _ => h.readSp_eq, h.bcnt_eq, h.pidx_eq, h.k_eq, h.sum_eq, h.val_eq, h.fault_regs_eq⟩

end Sys2Proof.Machine
end

section
/-! Proof of O41: the outputs, with a call pending and without one. -/

namespace Sys2Proof.Machine

variable {s : State}

theorem outputs_of_call {req : Request} (h : callOf s = some req) :
    outputs s = driveRequest (statusOutputs s) (encode req.instr) := by
  simp only [outputs, h]

theorem outputs_of_no_call (h : callOf s = none) : outputs s = statusOutputs s := by
  simp only [outputs, h]

/-- The status mirrors of R44. -/
def Outputs.Mirrors (o : Outputs) (s : State) : Prop :=
  o.st = s.st ∧ o.ph = s.ph ∧ o.fault = s.fault ∧ o.faultCode = s.faultCode ∧
    o.faultSid = s.faultSid ∧ o.pidx = s.pidx

/-- How many request lines are up (R73). -/
def Outputs.requests (o : Outputs) : Nat :=
  o.busReq.toNat + o.pinReq.toNat + o.persReq.toNat + o.dlyReq.toNat

/-- Driving a request writes no status signal. -/
theorem driveRequest_mirrors (s : State) (c : CodeWord) :
    (driveRequest (statusOutputs s) c).Mirrors s := by
  cases c <;> exact ⟨rfl, rfl, rfl, rfl, rfl, rfl⟩

theorem outputs_mirrors (s : State) : (outputs s).Mirrors s := by
  cases h : callOf s with
  | none =>
    rw [outputs_of_no_call h]
    exact ⟨rfl, rfl, rfl, rfl, rfl, rfl⟩
  | some req =>
    rw [outputs_of_call h]
    exact driveRequest_mirrors s _

/-- Each of the eight calls is a request on exactly one port (R120, R122, R123). -/
theorem driveRequest_requests (s : State) (req : Request) :
    (driveRequest (statusOutputs s) (encode req.instr)).requests = 1 := by
  cases req <;> rfl

theorem outputs_requests (s : State) :
    (outputs s).requests = if (callOf s).isSome then 1 else 0 := by
  cases h : callOf s with
  | none =>
    rw [outputs_of_no_call h]
    rfl
  | some req =>
    rw [outputs_of_call h]
    exact driveRequest_requests s req

/-- Settles O41: the mirrors and the number of requests, then the encoding of each call on its port. -/
theorem outputsCarryThePendingCall : Obligations.OutputsCarryThePendingCall := by
  intro s
  obtain ⟨hst, hph, hfault, hcode, hsid, hpidx⟩ := outputs_mirrors s
  refine ⟨hst, hph, hfault, hcode, hsid, hpidx, outputs_requests s, ?resetBus, ?readByte, ?transaction,
    ?enumerateNext, ?digitalWrite, ?analogRead, ?insertReading, ?delay⟩
  case resetBus | readByte =>
    intro h
    rw [outputs_of_call h]
    exact ⟨rfl, rfl⟩
  case transaction =>
    intro cmd adr h
    rw [outputs_of_call h]
    exact ⟨rfl, rfl, rfl, rfl⟩
  case enumerateNext | digitalWrite =>
    intro bit h
    rw [outputs_of_call h]
    exact ⟨rfl, rfl, rfl⟩
  case analogRead =>
    intro ch h
    rw [outputs_of_call h]
    exact ⟨rfl, rfl, by cases ch <;> rfl⟩
  case insertReading =>
    intro sid kind num h
    rw [outputs_of_call h]
    exact ⟨rfl, rfl, valueKind_packValue kind num, valueNum_packValue kind num⟩
  case delay =>
    intro us h
    rw [outputs_of_call h]
    exact ⟨rfl, rfl⟩

end Sys2Proof.Machine
end

section
/-! Proofs of O55 and O36: the predicates of R43, and the steps that name storage that does not exist. -/

namespace Sys2Proof.Machine

variable {s : State}

/-! ## The predicates of R43 -/

/-- The sign of the temperature field is the top bit of its high byte (R74, R146). -/
theorem decodeRaw_neg_iff (b0 b1 : Byte) : decodeRaw b0 b1 < 0 ↔ b1[7] = true := by
  have hmsb : (rawField b0 b1).msb = b1[7] := by
    rw [rawField, BitVec.msb_append]
    rfl
  rw [decodeRaw, ← hmsb, BitVec.msb_eq_toInt, decide_eq_true_iff]

theorem crcMatch_iff (s : State) : crcMatch s = true ↔ crc8 s.cfg (framePayload s.sp) = s.sp[8] :=
  beq_iff_eq

/-- In range, the probe is the last one exactly when the advance leaves the temperature leg (R218). -/
theorem lastProbe_iff_advance (h : s.pidx.toNat < s.cfg.nProbes) :
    lastProbe s = true ↔ s.advance.st = 6 := by
  rw [lastProbe, decide_eq_true_iff]
  obtain ⟨hmore, heq⟩ | ⟨hlast, heq⟩ := advance_cases s <;> rw [heq]
  · exact iff_of_false (by omega) (by simp)
  · exact iff_of_true (by omega) rfl

theorem tempQ_eq (n : Int) : tempQ n = (n : ℚ) / 16 := by
  rw [tempQ, tempLsb, mul_one_div]

theorem valueQ_temp (b0 b1 : Byte) :
    valueQ 1 (vnumOf (decodeRaw b0 b1)) = some (tempQ (decodeRaw b0 b1)) := by
  rw [tempQ_eq, ← toInt_vnumOf_decodeRaw]
  simp [valueQ, vden, toInt_vnumOf_decodeRaw]

/-- Settles O55. -/
theorem predicatesSayWhatTheirReadersUse : Obligations.PredicatesSayWhatTheirReadersUse :=
  ⟨fun s => ⟨(decodeRaw_neg_iff _ _).symm, crcMatch_iff s, lastProbe_iff_advance⟩,
    fun b0 b1 => ⟨valueQ_temp b0 b1, tempQ_eq _⟩⟩

/-! ## Storage that does not exist -/

theorem readAddr_absent {i : BitVec 8} (h : s.addr.length ≤ i.toNat) : s.readAddr i = none :=
  List.getElem?_eq_none h

theorem writeAddr_absent {i : BitVec 8} (a : Address) (h : s.addr.length ≤ i.toNat) :
    s.writeAddr i a = none :=
  if_neg h.not_gt

theorem writeSp_absent {i : Nat} (b : Byte) (h : 9 ≤ i) : s.writeSp i b = none :=
  dif_neg h.not_gt

theorem initEnum_absent {a : BusAnswer} {rest : List BusAnswer} (hbus : s.busIn = a :: rest)
    (hok : a.status = 0) (h : s.addr.length ≤ s.eidx.toNat) :
    exec .initEnum s = .fault .addrSlotAbsent := by
  have hresult : enumResult a = .addr a.raddr := if_pos hok
  have hwrite (req : Request) (res : Result) :
      ({ s with busIn := rest }.record req res).writeAddr s.eidx a.raddr = none := writeAddr_absent _ h
  simp [exec, execInitEnum, callEnumerateNext, takeBus_cons hbus, hresult, hwrite]

theorem rtByte_absent {a : BusAnswer} {rest : List BusAnswer} (hbus : s.busIn = a :: rest)
    (h : 9 ≤ s.bcnt.toNat) : exec .rtByte s = .fault .scratchOffsetAbsent := by
  simp [exec, execRtByte, callReadByte, takeBus_cons hbus, writeSp_absent, h]

/-- Settles O36. -/
theorem absentStorageStopsTheStep : Obligations.AbsentStorageStopsTheStep := by
  refine ⟨fun s h => ⟨?_, ?_⟩, fun _ _ _ => initEnum_absent, fun _ _ _ => rtByte_absent⟩
  · simp [exec, execStartConversion, readAddr_absent h]
  · simp [exec, execRtCmd, readAddr_absent h]

end Sys2Proof.Machine
end

section
/-! Proof of O47: the events of one step are its pending call and its diagnostic events, all well-formed. -/

namespace Sys2Proof.Machine

variable {s t : State}

/-! ## What a step adds to the trace, as a list -/

/-- `newEvents` is what was appended. -/
theorem newEvents_of_trace {es : List Event} (h : t.trace = s.trace ++ es) : newEvents s t = es := by
  rw [newEvents, h, List.drop_left]

theorem AddsAtMostItsCall.trace_eq (h : AddsAtMostItsCall s t) : t.trace = s.trace ++ newEvents s t := by
  obtain ⟨calls, diags, htrace, _, _⟩ := h
  rw [List.append_assoc] at htrace
  rw [newEvents_of_trace htrace, htrace]

/-- A new event is the pending call with some result, or one of the step's diagnostic events. -/
theorem AddsAtMostItsCall.mem_newEvents {e : Event} (h : AddsAtMostItsCall s t) (he : e ∈ newEvents s t) :
    (∃ req res, callOf s = some req ∧ e = .call req res) ∨
      ∃ diags, StepDiags diags ∧ e ∈ diags := by
  obtain ⟨calls, diags, htrace, hcalls, hdiags⟩ := h
  rw [List.append_assoc] at htrace
  rw [newEvents_of_trace htrace] at he
  obtain hc | hd := List.mem_append.mp he
  · obtain ⟨req, res, hcall, rfl⟩ | ⟨rfl, _⟩ := hcalls
    · exact .inl ⟨req, res, hcall, List.mem_singleton.mp hc⟩
    · cases hc
  · exact .inr ⟨diags, hdiags, hd⟩

/-! ## Well-formedness -/

/-- No step raises a reserved kind (R116, R117). -/
theorem StepDiags.wf {diags : List Event} (h : StepDiags diags) : ∀ e ∈ diags, e.wf = true := by
  obtain rfl | ⟨sid, kind, rfl, hkind⟩ | ⟨sid, rfl⟩ := h
  · exact fun _ he => nomatch he
  · have hoccurs : ∀ k ∈ [1#4, 2#4, 3#4, 6#4, 8#4], diagKindOccurs k = true := by decide
    intro e he
    rw [List.mem_singleton.mp he]
    exact hoccurs kind hkind
  · intro e he
    obtain rfl | rfl : e = .diag sid 5 ∨ e = .diag sid 7 := by simpa using he
    · rfl
    · rfl

theorem recordSidOccurs_of_pos {sid : Sid} (h : 0 < sid.toNat) : recordSidOccurs sid = true := by
  have hne : sid ≠ 0 := by
    rintro rfl
    cases h
  simpa [recordSidOccurs] using hne

theorem insertReading_wf {sid : Sid} {vkind : Vkind} {vnum : Vnum} (hsid : 0 < sid.toNat)
    (hval : valueOccurs vkind vnum = true) : (Request.insertReading sid vkind vnum).instr.wf = true :=
  Bool.and_eq_true_iff.mpr ⟨recordSidOccurs_of_pos hsid, hval⟩

/-- The inversion of `callOf`: the phase selects a micro-operation, and the call is its call. -/
theorem callOf_eq_some {req : Request} (h : callOf s = some req) :
    ∃ i, (s.st, s.ph, i) ∈ phaseTable ∧ callOfInstr i s = some req := by
  cases hd : decode (.seq s.seqWord) with
  | ok i => exact ⟨i, phase_of_decode hd, (callOf_eq hd).symm.trans h⟩
  | error e => cases (callOf_reserved hd).symm.trans h

/-- Under the invariant the pending call has operands that occur: the delays are constants, and the ids and the
value of an insert are in range (R41, R84, R115, R118). -/
theorem State.Inv.callOf_wf {req : Request} (hs : s.Inv) (h : callOf s = some req) :
    req.instr.wf = true := by
  obtain ⟨i, hrow, hcall⟩ := callOf_eq_some h
  cases i with
  | rtPersist =>
    obtain ⟨hst, hph⟩ : s.st = 5 ∧ s.ph = 3 := by simpa [phaseTable] using hrow
    cases hcall
    have hsid := toNat_sidTemp hs.pidxRange
    exact insertReading_wf (by omega) (hs.tempReady (seqWord_of_phase hst hph)).2
  | dsPersist =>
    obtain ⟨hst, hph⟩ : s.st = 6 ∧ s.ph = 7 := by simpa [phaseTable] using hrow
    cases hcall
    have hsid := toNat_sidDust s.cfg
    exact insertReading_wf (by omega) (hs.dustReady (seqWord_of_phase hst hph)).2
  | hmPersist =>
    obtain ⟨hst, hph⟩ : s.st = 7 ∧ s.ph = 1 := by simpa [phaseTable] using hrow
    cases hcall
    have hsid := toNat_sidHum s.cfg
    exact insertReading_wf (by omega) (hs.humReady (seqWord_of_phase hst hph)).2
  | startConversion | rtCmd =>
    obtain ⟨adr, _, rfl⟩ := Option.map_eq_some_iff.mp hcall
    rfl
  | initReset | initEnum | awaitConversion | rtByte | dsLedOn | dsHoldRise | dsSample | dsHoldPulse
  | dsLedOff | dsHoldSettle | hmSample | sleep => cases hcall; rfl
  | idle | rtCheck | dsConvert | fault => cases hcall
  | _ => simp [phaseTable] at hrow

/-- Settles O47. -/
theorem everyEventIsWellFormed : Obligations.EveryEventIsWellFormed := by
  intro s t hs hstep e he
  obtain ⟨req, res, hcall, rfl⟩ | ⟨diags, hdiags, he⟩ :=
    (transition_of_step hstep).addsAtMostItsCall.mem_newEvents he
  · exact hs.callOf_wf hcall
  · exact hdiags.wf e he

end Sys2Proof.Machine
end

section
/-! Proof of O39: an instruction whose call is not answered waits. -/

namespace Sys2Proof.Machine

variable {s : State}

/-! ## A call without an answer on its port (R62) -/

theorem callResetBus_unanswered (h : answered .resetBus s = false) : callResetBus s = none := by
  simp [callResetBus, takeBus_nil (by simpa [answered] using h)]

theorem callEnumerateNext_unanswered {cont : Bool} (h : answered (.enumerateNext cont) s = false) :
    callEnumerateNext cont s = none := by
  simp [callEnumerateNext, takeBus_nil (by simpa [answered] using h)]

theorem callTransaction_unanswered {cmd : Byte} {adr : Address}
    (h : answered (.transaction cmd adr) s = false) : callTransaction cmd adr s = none := by
  simp [callTransaction, takeBus_nil (by simpa [answered] using h)]

theorem callReadByte_unanswered (h : answered .readByte s = false) : callReadByte s = none := by
  simp [callReadByte, takeBus_nil (by simpa [answered] using h)]

theorem callDigitalWrite_unanswered {level : Bool} (h : answered (.digitalWrite level) s = false) :
    callDigitalWrite level s = none := by
  simp [callDigitalWrite, takePin_nil (by simpa [answered] using h)]

theorem callAnalogRead_unanswered {ch : Channel} (h : answered (.analogRead ch) s = false) :
    callAnalogRead ch s = none := by
  simp [callAnalogRead, takePin_nil (by simpa [answered] using h)]

theorem callInsertReading_unanswered {sid : Sid} {vkind : Vkind} {vnum : Vnum}
    (h : answered (.insertReading sid vkind vnum) s = false) :
    callInsertReading sid vkind vnum s = none := by
  simp [callInsertReading, takePers_nil (by simpa [answered] using h)]

theorem callDelay_unanswered {us : DelayUs} (h : answered (.delay us) s = false) :
    callDelay us s = none := by
  simp [callDelay, takeDelay_zero (by simpa [answered] using h)]

/-- A wait on a call that has not returned leaves the state as it is, whatever comes after. -/
theorem await_of_eq_none {α : Type} {call : Option (α × State)} (h : call = none)
    (k : α → State → Out) : s.await call k = .next s := by
  rw [h, await_none]

/-- Settles O39: `exec` of each instruction that has a call is a wait on that call. A transaction needs its `ADDR`
entry first. -/
theorem unansweredCallsBlock : Obligations.UnansweredCallsBlock := by
  intro i s req hcall hno
  cases i with
  | initReset | resetBus => cases hcall; exact await_of_eq_none (callResetBus_unanswered hno) _
  | initEnum | enumerateNext =>
    cases hcall; exact await_of_eq_none (callEnumerateNext_unanswered hno) _
  | startConversion =>
    obtain ⟨adr, hadr, rfl⟩ := Option.map_eq_some_iff.mp hcall
    simp only [exec, execStartConversion, hadr]
    exact await_of_eq_none (callTransaction_unanswered hno) _
  | rtCmd =>
    obtain ⟨adr, hadr, rfl⟩ := Option.map_eq_some_iff.mp hcall
    simp only [exec, execRtCmd, hadr]
    exact await_of_eq_none (callTransaction_unanswered hno) _
  | transaction => cases hcall; exact await_of_eq_none (callTransaction_unanswered hno) _
  | rtByte | readByte => cases hcall; exact await_of_eq_none (callReadByte_unanswered hno) _
  | dsLedOn | dsLedOff | digitalWrite =>
    cases hcall; exact await_of_eq_none (callDigitalWrite_unanswered hno) _
  | dsSample | hmSample | analogRead =>
    cases hcall; exact await_of_eq_none (callAnalogRead_unanswered hno) _
  | rtPersist | dsPersist | hmPersist | insertReading =>
    cases hcall; exact await_of_eq_none (callInsertReading_unanswered hno) _
  | awaitConversion | dsHoldRise | dsHoldPulse | dsHoldSettle | sleep | delay =>
    cases hcall; exact await_of_eq_none (callDelay_unanswered hno) _
  | idle | rtCheck | dsConvert | fault | diag => cases hcall

end Sys2Proof.Machine
end

section
/-! Proofs of O37 and O38: the interface requests are their calls alone. -/

namespace Sys2Proof.Machine

variable {s : State}

/-! ## A call with an answer on its port: what it returns and the state it leaves -/

section Bus

variable {a : BusAnswer} {rest : List BusAnswer}

theorem callResetBus_cons (h : s.busIn = a :: rest) :
    callResetBus s = some (resetResult a, { s with
      busIn := rest, trace := s.trace ++ [.call .resetBus (.reset (resetResult a))] }) := by
  simp [callResetBus, takeBus_cons h, State.record]

theorem callEnumerateNext_cons (cont : Bool) (h : s.busIn = a :: rest) :
    callEnumerateNext cont s = some (enumResult a, { s with
      busIn := rest, trace := s.trace ++ [.call (.enumerateNext cont) (.enum (enumResult a))] }) := by
  simp [callEnumerateNext, takeBus_cons h, State.record]

theorem callTransaction_cons (cmd : Byte) (adr : Address) (h : s.busIn = a :: rest) :
    callTransaction cmd adr s = some ((), { s with
      busIn := rest, trace := s.trace ++ [.call (.transaction cmd adr) .done] }) := by
  simp [callTransaction, takeBus_cons h, State.record]

theorem callReadByte_cons (h : s.busIn = a :: rest) :
    callReadByte s = some (a.rdata, { s with
      busIn := rest, trace := s.trace ++ [.call .readByte (.byte a.rdata)] }) := by
  simp [callReadByte, takeBus_cons h, State.record, byteResult]

end Bus

section Pin

variable {a : PinAnswer} {rest : List PinAnswer}

theorem callDigitalWrite_cons (level : Bool) (h : s.pinIn = a :: rest) :
    callDigitalWrite level s = some (writeResult a, { s with
      pinIn := rest, trace := s.trace ++ [.call (.digitalWrite level) (.status (writeResult a))] }) := by
  simp [callDigitalWrite, takePin_cons h, State.record]

theorem callAnalogRead_cons (ch : Channel) (h : s.pinIn = a :: rest) :
    callAnalogRead ch s = some (a.adc, { s with
      pinIn := rest, trace := s.trace ++ [.call (.analogRead ch) (.count a.adc)] }) := by
  simp [callAnalogRead, takePin_cons h, State.record, countResult]

end Pin

theorem callInsertReading_cons {a : PersAnswer} {rest : List PersAnswer} (sid : Sid) (vkind : Vkind)
    (vnum : Vnum) (h : s.persIn = a :: rest) :
    callInsertReading sid vkind vnum s = some (insertResult a, { s with
      persIn := rest
      trace := s.trace ++ [.call (.insertReading sid vkind vnum) (.status (insertResult a))] }) := by
  simp [callInsertReading, takePers_cons h, State.record]

theorem callDelay_succ {n : Nat} (us : DelayUs) (h : s.dlyIn = n + 1) :
    callDelay us s = some ((), { s with
      dlyIn := n, trace := s.trace ++ [.call (.delay us) .done] }) := by
  simp [callDelay, takeDelay_succ h, State.record]

/-- A wait on a call that has returned goes on with what the call returned and left. -/
theorem await_of_eq_some {α : Type} {call : Option (α × State)} {r : α} {u : State}
    (h : call = some (r, u)) (k : α → State → Out) : s.await call k = k r u := by
  rw [h, await_some]

/-! ## Legal statuses (R121) -/

theorem resetResult_ok {a : BusAnswer} (h : a.status = 0) : resetResult a = .ok := by
  simp [resetResult, h]

theorem resetResult_noDevices {a : BusAnswer} (h : a.status = 1) : resetResult a = .noDevices := by
  simp [resetResult, h]

theorem resetResult_dataError {a : BusAnswer} (h : a.status = 2) : resetResult a = .dataError := by
  simp [resetResult, h]

theorem enumResult_addr {a : BusAnswer} (h : a.status = 0) : enumResult a = .addr a.raddr := by
  simp [enumResult, h]

theorem enumResult_noDevice {a : BusAnswer} (h : a.status = 1) : enumResult a = .noDevice := by
  simp [enumResult, h]

/-- Settles O37: each request is a wait on its call, which has returned. -/
theorem busRequestsAreTheirCalls : Obligations.BusRequestsAreTheirCalls := by
  intro s a rest hbus
  have hreset : exec .resetBus s = .next { s with
      busIn := rest, trace := s.trace ++ [.call .resetBus (.reset (resetResult a))] } :=
    await_of_eq_some (callResetBus_cons hbus) _
  have henum (cont : Bool) : exec (.enumerateNext cont) s = .next { s with
      busIn := rest, trace := s.trace ++ [.call (.enumerateNext cont) (.enum (enumResult a))] } :=
    await_of_eq_some (callEnumerateNext_cons cont hbus) _
  exact ⟨fun h => resetResult_ok h ▸ hreset, fun h => resetResult_noDevices h ▸ hreset,
    fun h => resetResult_dataError h ▸ hreset, fun cont h => enumResult_addr h ▸ henum cont,
    fun cont h => enumResult_noDevice h ▸ henum cont,
    fun cmd adr => await_of_eq_some (callTransaction_cons cmd adr hbus) _,
    await_of_eq_some (callReadByte_cons hbus) _⟩

/-- Settles O38: as O37 on the other three ports; `DIAG` has no call. -/
theorem pinPersistenceDelayAndDiagRequests : Obligations.PinPersistenceDelayAndDiagRequests :=
  ⟨fun _ _ _ level ch hpin =>
      ⟨await_of_eq_some (callDigitalWrite_cons level hpin) _,
        await_of_eq_some (callAnalogRead_cons ch hpin) _⟩,
    fun _ _ _ sid kind num hpers => await_of_eq_some (callInsertReading_cons sid kind num hpers) _,
    fun _ _ us hdly => await_of_eq_some (callDelay_succ us hdly) _,
    fun _ _ _ => rfl⟩

end Sys2Proof.Machine
end

section
/-! Proof of O56: an address is its eight bytes. -/

namespace Sys2Proof.Machine

/-- Byte `i` of an address is the address shifted down by `8 i` bits and cut to a byte (R75). -/
theorem addrByte_eq_shift (a : Address) (i : Nat) : addrByte a i = (a >>> (8 * i)).setWidth 8 := by
  ext j hj
  simp [addrByte]

theorem addrOfBytes_cons (b : Byte) (bs : List Byte) :
    addrOfBytes (b :: bs) = (addrOfBytes bs <<< 8) ||| b.setWidth 64 := rfl

/-- Reassembling `n` bytes of an address from byte `i` on gives its bits from `8 i` on, `8 n` of them. -/
theorem getLsbD_addrOfBytes (a : Address) (n : Nat) : ∀ i j : Nat, j < 64 →
    (addrOfBytes ((List.range' i n).map (addrByte a))).getLsbD j =
      (decide (j < 8 * n) && a.getLsbD (8 * i + j)) := by
  induction n with
  | zero => simp [addrOfBytes]
  | succ n ih =>
    intro i j hj
    rw [List.range'_succ, List.map_cons, addrOfBytes_cons]
    by_cases hlow : j < 8
    · have hn : j < 8 * (n + 1) := by omega
      simp [addrByte, hlow, hj, hn]
    · have hrest := ih (i + 1) (j - 8) (by omega)
      have hbit : 8 * (i + 1) + (j - 8) = 8 * i + j := by omega
      have hlen : j - 8 < 8 * n ↔ j < 8 * (n + 1) := by omega
      have hbyte : (addrByte a i).getLsbD j = false := BitVec.getLsbD_of_ge _ _ (by omega)
      rw [BitVec.getLsbD_or, BitVec.getLsbD_shiftLeft, hrest, hbit]
      simp [hlow, hj, hlen, hbyte]

/-- Settles O56. -/
theorem addressIsItsEightBytes : Obligations.AddressIsItsEightBytes := by
  refine fun a => ⟨?reassembled, rfl, ?byte⟩
  case reassembled =>
    ext j hj
    have hbits := getLsbD_addrOfBytes a addrLen 0 j hj
    rw [← List.range_eq_range'] at hbits
    simpa [addrBytes, addrLen, hj] using hbits
  case byte =>
    intro i hi
    have hrange : (List.range addrLen)[i]? = some i := List.getElem?_range hi
    rw [addrBytes, List.getElem?_map, hrange, Option.map_some, addrByte_eq_shift]

end Sys2Proof.Machine
end

section
/-! Proof of O23: runs of steps with the events they add, and the level of the emitter along one. -/

namespace Sys2Proof.Machine

variable {s t : State}

/-! ## Runs -/

theorem runSteps_succ {n : Nat} (h : runSteps (n + 1) s = .next t) :
    ∃ u, step s = .next u ∧ runSteps n u = .next t := by
  unfold runSteps at h
  split at h
  · next u hu => exact ⟨u, hu, h⟩
  · cases h
  · cases h

/-- Induction over a run, first step first, with the events it adds: what holds of no step, and of a step before
a run it holds of, holds of every run. -/
theorem runSteps_induction {motive : State → List Event → State → Prop} (refl : ∀ s, motive s [] s)
    (step : ∀ {s u t : State} {es : List Event}, Transition s u → motive u es t →
      motive s (newEvents s u ++ es) t)
    {n : Nat} (h : runSteps n s = .next t) : motive s (newEvents s t) t := by
  have key : ∃ es, t.trace = s.trace ++ es ∧ motive s es t := by
    induction n generalizing s with
    | zero =>
      cases h
      exact ⟨[], (List.append_nil _).symm, refl _⟩
    | succ n ih =>
      obtain ⟨u, hstep, hrun⟩ := runSteps_succ h
      obtain ⟨es, htrace, hes⟩ := ih hrun
      have hu := transition_of_step hstep
      refine ⟨newEvents s u ++ es, ?_, step hu hes⟩
      rw [htrace, hu.addsAtMostItsCall.trace_eq, List.append_assoc]
  obtain ⟨es, htrace, hes⟩ := key
  rwa [newEvents_of_trace htrace]

/-! ## The emitter -/

/-- Between the two writes of a sample (R173, R177). -/
def State.InsideSample (s : State) : Prop := s.st = 6 ∧ 1 ≤ s.ph.toNat ∧ s.ph.toNat ≤ 4

theorem insideSample_of_phase {y : BitVec 4} (hst : s.st = 6) (hph : s.ph = y)
    (hy : 1 ≤ y.toNat ∧ y.toNat ≤ 4 := by decide) : s.InsideSample :=
  ⟨hst, by rwa [hph]⟩

theorem not_insideSample_of_st {x : BitVec 4} (hst : s.st = x) (hx : x ≠ 6 := by decide) :
    ¬ s.InsideSample :=
  fun h => hx (hst.symm.trans h.1)

theorem not_insideSample_of_ph {y : BitVec 4} (hph : s.ph = y)
    (hy : ¬ (1 ≤ y.toNat ∧ y.toNat ≤ 4) := by decide) : ¬ s.InsideSample :=
  fun h => hy (by simpa only [← hph] using h.2)

theorem not_insideSample_of_reserved {e : DecodeError} (hd : decode (.seq s.seqWord) = .error e) :
    ¬ s.InsideSample := by
  have rows : ∀ y : BitVec 4, 1 ≤ y.toNat ∧ y.toNat ≤ 4 →
      (decode (.seq (packSeq 6 y))).toOption.isSome = true := by decide
  rintro ⟨hst, hph⟩
  have hsome := rows s.ph hph
  rw [← hst, ← State.seqWord, hd] at hsome
  cases hsome

/-- The probe advance leads to `START_CONVERSION` or to the first write of a batch (R218). -/
theorem not_insideSample_advance (s : State) : ¬ s.advance.InsideSample := by
  obtain ⟨_, h⟩ | ⟨_, h⟩ := advance_cases s <;> rw [h]
  · exact not_insideSample_of_st (x := 3) rfl
  · exact not_insideSample_of_ph (y := 0) rfl

/-- No write of the trace failed. -/
def NoFailedWrite (es : List Event) : Prop :=
  ∀ level, .call (.digitalWrite level) (.status .error) ∉ es

theorem emitterLevel_append (level : Option Bool) (es es' : List Event) :
    emitterLevel level (es ++ es') = emitterLevel (emitterLevel level es) es' := by
  fun_induction emitterLevel level es with
  | case1 => rfl
  | _ => simp [emitterLevel, *]

/-- Along the events `es` from `s` to `t`: if the emitter is on in `s` exactly inside a sample, it is so in `t`. -/
def EmitterFollows (s : State) (es : List Event) (t : State) : Prop :=
  ∀ level, (level = some true ↔ s.InsideSample) → (emitterLevel level es = some true ↔ t.InsideSample)

theorem EmitterFollows.append {u : State} {es es' : List Event} (h : EmitterFollows s es u)
    (h' : EmitterFollows u es' t) : EmitterFollows s (es ++ es') t := by
  intro level hlevel
  rw [emitterLevel_append]
  exact h' _ (h level hlevel)

/-- No write among the events, and inside a sample both before and after, or neither. -/
theorem EmitterFollows.of_quiet {es : List Event} (htrace : t.trace = s.trace ++ es)
    (hquiet : ∀ level, emitterLevel level es = level) (hinside : s.InsideSample ↔ t.InsideSample) :
    EmitterFollows s (newEvents s t) t := by
  intro level hlevel
  rw [newEvents_of_trace htrace, hquiet, hlevel, hinside]

theorem EmitterFollows.of_silent (htrace : t.trace = s.trace)
    (hinside : s.InsideSample ↔ t.InsideSample) : EmitterFollows s (newEvents s t) t :=
  .of_quiet (es := []) (by rw [htrace, List.append_nil]) (fun _ => rfl) hinside

/-- A write that succeeds: from now on the level is the one written. -/
theorem EmitterFollows.of_write {l : Bool}
    (htrace : t.trace = s.trace ++ [.call (.digitalWrite l) (.status .ok)])
    (hinside : l = true ↔ t.InsideSample) : EmitterFollows s (newEvents s t) t := by
  intro level _
  rw [newEvents_of_trace htrace, ← hinside]
  exact Option.some_inj

theorem not_noFailedWrite {l : Bool} {es : List Event}
    (htrace : t.trace = s.trace ++ .call (.digitalWrite l) (.status .error) :: es) :
    ¬ NoFailedWrite (newEvents s t) := by
  rw [newEvents_of_trace htrace]
  exact fun h => h l List.mem_cons_self

open EmitterFollows in
/-- Each row of the transition table (R225): the two writes enter and leave the sample, the three steps between
them stay in it, every other step stays outside. -/
theorem Transition.emitterFollows (h : Transition s t) (hok : NoFailedWrite (newEvents s t)) :
    EmitterFollows s (newEvents s t) t := by
  cases h with
  | waits | fault => exact of_silent rfl Iff.rfl
  | reserved hd =>
    exact of_silent rfl (iff_of_false (not_insideSample_of_reserved hd) (not_insideSample_of_st (x := 9) rfl))
  -- the emitter writes
  | dsLedOnOk hst => exact of_write rfl (iff_of_true rfl (insideSample_of_phase (y := 1) hst rfl))
  | dsLedOffOk => exact of_write rfl (iff_of_false nofun (not_insideSample_of_ph (y := 5) rfl))
  | dsLedOnHalt | dsLedOnRecover | dsLedOffHalt | dsLedOffRecover =>
    exact absurd hok (not_noFailedWrite rfl)
  -- between the writes of a sample
  | dsHoldRise hst hph | dsSample hst hph | dsHoldPulse hst hph =>
    refine of_quiet rfl (fun _ => rfl) (iff_of_true (insideSample_of_phase hst hph) ?_)
    simp [State.InsideSample, hst]
  -- the rest of the dust leg
  | dsHoldSettleMore hst hph | dsHoldSettleLast hst hph | dsPersistOk hst hph | dsPersistHalt hst hph
  | dsPersistRecover hst hph =>
    refine of_quiet rfl (fun _ => rfl) (iff_of_false (not_insideSample_of_ph hph) ?_)
    simp [State.InsideSample]
  | dsConvert hst hph =>
    exact of_silent rfl (iff_of_false (not_insideSample_of_ph hph) (not_insideSample_of_ph (y := 7) rfl))
  -- the other legs
  | idle hst =>
    exact of_silent rfl (iff_of_false (not_insideSample_of_st hst) (not_insideSample_of_st (x := 3) rfl))
  | rtCheckMatch hst =>
    exact of_silent rfl (iff_of_false (not_insideSample_of_st hst) (not_insideSample_of_st (x := 5) hst))
  | rtCheckRecover hst | rtPersistOk hst | rtPersistRecover hst =>
    exact of_quiet (State.advance_trace _) (fun _ => rfl)
      (iff_of_false (not_insideSample_of_st hst) (not_insideSample_advance _))
  | initResetOk hst | initResetNoDevices hst | initResetDataError hst | initEnumMore hst | initEnumLast hst
  | initEnumNone hst | initEnumFew hst | startConversion hst | awaitConversion hst | rtCmd hst
  | rtByteMore _ hst | rtByteLast _ hst | rtCheckHalt hst | rtPersistHalt hst | hmSample hst
  | hmPersistOk hst | hmPersistHalt hst | hmPersistRecover hst | sleep hst =>
    refine of_quiet rfl (fun _ => rfl) (iff_of_false (not_insideSample_of_st hst) ?_)
    simp [State.InsideSample, hst]

theorem runSteps_emitterFollows {n : Nat} (h : runSteps n s = .next t)
    (hok : NoFailedWrite (newEvents s t)) : EmitterFollows s (newEvents s t) t := by
  refine runSteps_induction (motive := fun s es t => NoFailedWrite es → EmitterFollows s es t)
    (fun _ _ _ hlevel => hlevel) ?_ h hok
  intro s u t es hstep ih hok
  have hfirst : NoFailedWrite (newEvents s u) := fun l hl => hok l (List.mem_append_left _ hl)
  have hrest : NoFailedWrite es := fun l hl => hok l (List.mem_append_right _ hl)
  exact (hstep.emitterFollows hfirst).append (ih hrest)

theorem st_of_seqWord {x y : BitVec 4} (h : s.seqWord = packSeq x y) : s.st = x :=
  (packSeq_inj h).1

/-- Settles O23: a cycle starts outside a sample with the emitter off, and every step keeps the two together. -/
theorem emitterIsOnOnlyInsideASample : Obligations.EmitterIsOnOnlyInsideASample := by
  intro n s t hstart hrun hok
  have houtside : ¬ s.InsideSample :=
    not_insideSample_of_st (x := 3) (st_of_seqWord (y := 0) hstart)
  exact runSteps_emitterFollows hrun hok (some false) (iff_of_false nofun houtside)

end Sys2Proof.Machine
end

section
/-! Proof of O48: the ids sent to persistence ascend from one idle delay to the next. -/

namespace Sys2Proof.Machine

variable {s t u : State} {es es' : List Event}

/-! ## What a run keeps -/

theorem runSteps_inv {n : Nat} (h : runSteps n s = .next t) (hs : s.Inv) : t.Inv :=
  runSteps_induction (motive := fun s _ t => s.Inv → t.Inv) (fun _ hs => hs)
    (fun hstep ih hs => ih (hstep.keeps_inv hs)) h hs

theorem runSteps_cfg {n : Nat} (h : runSteps n s = .next t) : t.cfg = s.cfg :=
  runSteps_induction (motive := fun s _ t => t.cfg = s.cfg) (fun _ => rfl)
    (fun hstep ih => ih.trans hstep.cfg_pol_eq.1) h

/-! ## The next id of a cycle -/

theorem insertedIds_append (es es' : List Event) :
    insertedIds (es ++ es') = insertedIds es ++ insertedIds es' := by
  fun_induction insertedIds es with
  | case1 => rfl
  | _ => simp [insertedIds, *]

/-- The least id the cycle may still send (R84, R226): the probe's own in the temperature leg and before it, then
the two other sensors', and past the last once both are sent or the block is in `FAULT`. -/
def State.nextId (s : State) : Nat :=
  if s.st = 6 then s.cfg.nProbes + 1
  else if s.st = 7 then s.cfg.nProbes + 2
  else if s.st = 8 ∨ s.st = 9 then s.cfg.nProbes + 3
  else s.pidx.toNat + 1

theorem State.nextId_probe {x : BitVec 4} (hst : s.st = x)
    (hx : x ≠ 6 ∧ x ≠ 7 ∧ x ≠ 8 ∧ x ≠ 9 := by decide) : s.nextId = s.pidx.toNat + 1 := by
  obtain ⟨h6, h7, h8, h9⟩ := hx
  rw [State.nextId, hst, if_neg h6, if_neg h7, if_neg (not_or.mpr ⟨h8, h9⟩)]

theorem State.nextId_dust (hst : s.st = 6) : s.nextId = s.cfg.nProbes + 1 := by
  simp [State.nextId, hst]

theorem State.nextId_hum (hst : s.st = 7) : s.nextId = s.cfg.nProbes + 2 := by
  simp [State.nextId, hst]

theorem State.nextId_pos (s : State) : 1 ≤ s.nextId := by
  unfold State.nextId
  split_ifs <;> omega

theorem State.nextId_le (h : s.pidx.toNat < s.cfg.nProbes) : s.nextId ≤ s.cfg.nProbes + 3 := by
  unfold State.nextId
  split_ifs <;> omega

/-- The probe advance goes on to the id after the probe's, which after the last probe is the dust sensor's. -/
theorem State.nextId_advance (h : s.pidx.toNat < s.cfg.nProbes) :
    s.advance.nextId = s.pidx.toNat + 2 := by
  have hn := nProbes_bounds s.cfg
  obtain ⟨_, heq⟩ | ⟨_, heq⟩ := advance_cases s <;> rw [heq]
  · rw [State.nextId_probe (x := 3) rfl, BitVec.toNat_ofNat]
    omega
  · rw [State.nextId_dust rfl]
    change s.cfg.nProbes + 1 = s.pidx.toNat + 2
    omega

/-! ## Ascending ids -/

/-- The ids sent by the events `es` from `s` to `t` ascend from the next id of `s` to below that of `t`. -/
structure IdsAscend (s : State) (es : List Event) (t : State) : Prop where
  nextId_le : s.nextId ≤ t.nextId
  bounds : ∀ id ∈ insertedIds es, s.nextId ≤ id ∧ id < t.nextId
  pairwise : (insertedIds es).Pairwise (· < ·)

theorem IdsAscend.of_none (hids : insertedIds es = []) (hnext : s.nextId ≤ t.nextId) :
    IdsAscend s es t :=
  { nextId_le := hnext
    bounds := by rw [hids]; exact fun _ h => nomatch h
    pairwise := by rw [hids]; exact .nil }

theorem IdsAscend.of_one {id : Nat} (hids : insertedIds es = [id]) (hlo : s.nextId ≤ id)
    (hhi : id < t.nextId) : IdsAscend s es t :=
  { nextId_le := hlo.trans hhi.le
    bounds := by
      rw [hids]
      intro i hi
      rw [List.mem_singleton.mp hi]
      exact ⟨hlo, hhi⟩
    pairwise := by rw [hids]; exact List.pairwise_singleton .. }

theorem IdsAscend.append (h : IdsAscend s es u) (h' : IdsAscend u es' t) :
    IdsAscend s (es ++ es') t :=
  { nextId_le := h.nextId_le.trans h'.nextId_le
    bounds := by
      rw [insertedIds_append]
      intro id hid
      obtain hid | hid := List.mem_append.mp hid
      · exact ⟨(h.bounds id hid).1, (h.bounds id hid).2.trans_le h'.nextId_le⟩
      · exact ⟨h.nextId_le.trans (h'.bounds id hid).1, (h'.bounds id hid).2⟩
    pairwise := by
      rw [insertedIds_append, List.pairwise_append]
      exact ⟨h.pairwise, h'.pairwise, fun id hid id' hid' =>
        (h.bounds id hid).2.trans_le (h'.bounds id' hid').1⟩ }

/-- A step with no call and no event. -/
theorem IdsAscend.of_silent (htrace : t.trace = s.trace) (hnext : s.nextId ≤ t.nextId) :
    IdsAscend s (newEvents s t) t :=
  .of_none (by rw [newEvents_of_trace (htrace.trans (List.append_nil _).symm)]; rfl) hnext

/-- A step that sends nothing to persistence. -/
theorem IdsAscend.of_no_insert (htrace : t.trace = s.trace ++ es) (hids : insertedIds es = [])
    (hnext : s.nextId ≤ t.nextId) : IdsAscend s (newEvents s t) t :=
  .of_none (by rw [newEvents_of_trace htrace, hids]) hnext

/-- A step that sends one record. -/
theorem IdsAscend.of_insert {id : Nat} (htrace : t.trace = s.trace ++ es) (hids : insertedIds es = [id])
    (hlo : s.nextId ≤ id) (hhi : id < t.nextId) : IdsAscend s (newEvents s t) t :=
  .of_one (by rw [newEvents_of_trace htrace, hids]) hlo hhi

open IdsAscend in
/-- Each row of the transition table (R225) but `SLEEP`'s, which ends the cycle. -/
theorem Transition.idsAscend (h : Transition s t) (hs : s.Inv)
    (hcycle : ∀ e ∈ newEvents s t, e.endsCycle = false) : IdsAscend s (newEvents s t) t := by
  have hp := hs.pidxRange
  have htemp := toNat_sidTemp hp
  have hdust := toNat_sidDust s.cfg
  have hhum := toNat_sidHum s.cfg
  cases h with
  | waits | fault => exact of_silent rfl le_rfl
  | reserved hd =>
    obtain ⟨i, hi⟩ := hs.wordDefined
    exact absurd (hi.symm.trans hd) nofun
  | sleep =>
    rw [newEvents_of_trace rfl] at hcycle
    exact absurd (hcycle _ List.mem_cons_self) nofun
  -- no record is sent
  | idle hst | rtCheckMatch hst | dsConvert hst => exact of_silent rfl (by simp [State.nextId, hst])
  | initResetOk hst | initEnumMore hst | initEnumLast hst | startConversion hst | awaitConversion hst
  | rtCmd hst | rtByteMore _ hst | rtByteLast _ hst | dsLedOnOk hst | dsLedOnRecover hst | dsHoldRise hst
  | dsSample hst | dsHoldPulse hst | dsLedOffOk hst | dsLedOffRecover hst | dsHoldSettleMore hst
  | dsHoldSettleLast hst | hmSample hst =>
    exact of_no_insert rfl rfl (by simp [State.nextId, hst])
  | rtCheckRecover hst =>
    refine of_no_insert (State.advance_trace _) rfl ?_
    rw [State.nextId_probe hst, State.nextId_advance (by exact hp)]
    exact Nat.le_succ _
  | initResetNoDevices | initResetDataError | initEnumNone | initEnumFew | rtCheckHalt | dsLedOnHalt
  | dsLedOffHalt =>
    exact of_no_insert rfl rfl ((State.nextId_le hp).trans_eq (by simp [State.nextId]))
  -- the record of a probe
  | rtPersistOk hst | rtPersistRecover hst =>
    refine of_insert (State.advance_trace _) rfl ((State.nextId_probe hst).trans_le htemp.ge) ?_
    rw [State.nextId_advance (by exact hp), htemp]
    exact Nat.lt_succ_self _
  | rtPersistHalt hst =>
    have hlt : s.pidx.toNat + 1 < s.cfg.nProbes + 3 := by omega
    exact of_insert rfl rfl ((State.nextId_probe hst).trans_le htemp.ge)
      (by simpa [State.nextId, htemp] using hlt)
  -- the record of the dust sensor
  | dsPersistOk hst | dsPersistHalt hst | dsPersistRecover hst =>
    exact of_insert rfl rfl ((State.nextId_dust hst).trans_le hdust.ge) (by simp [State.nextId, hdust])
  -- the record of the humidity sensor
  | hmPersistOk hst | hmPersistHalt hst | hmPersistRecover hst =>
    exact of_insert rfl rfl ((State.nextId_hum hst).trans_le hhum.ge) (by simp [State.nextId, hhum])

/-- Settles O48: the ids ascend over the run, and its last state bounds them from above. -/
theorem recordIdsIncreaseWithinACycle : Obligations.RecordIdsIncreaseWithinACycle := by
  intro n s t hs hrun hcycle
  have hids : IdsAscend s (newEvents s t) t := by
    refine runSteps_induction
      (motive := fun s es t => s.Inv → (∀ e ∈ es, e.endsCycle = false) → IdsAscend s es t)
      (fun _ _ _ => .of_none rfl le_rfl) ?_ hrun hs hcycle
    intro s u t es hstep ih hs hcycle
    have hfirst := hstep.idsAscend hs fun e he => hcycle e (List.mem_append_left _ he)
    exact hfirst.append (ih (hstep.keeps_inv hs) fun e he => hcycle e (List.mem_append_right _ he))
  have hlast := State.nextId_le (runSteps_inv hrun hs).pidxRange
  rw [runSteps_cfg hrun] at hlast
  refine ⟨hids.pairwise, fun id hid => ?_⟩
  obtain ⟨hlo, hhi⟩ := hids.bounds id hid
  exact ⟨s.nextId_pos.trans hlo, by omega⟩

end Sys2Proof.Machine
end


section
/-! Proofs of O4, O3 and O6: the decoder as a relation, port by port, the encoder as its inverse, and the words
it rejects. -/

namespace Sys2Proof.Machine

/-! ## Sequencing words (R101, R124) -/

theorem decode_seq_of_mem : ∀ row ∈ seqTable, decode (.seq row.1) = .ok row.2 := by decide

theorem encode_of_mem_seqTable : ∀ row ∈ seqTable, encode row.2 = .seq row.1 := by decide

theorem decode_seq_eq_ok_iff {w : SeqWord} {i : Instr} :
    decode (.seq w) = .ok i ↔ (w, i) ∈ seqTable :=
  ⟨decodeSeq_eq_ok, decode_seq_of_mem (w, i)⟩

/-- A word is reserved when no row of the table has it. -/
theorem decode_seq_eq_error_iff {w : SeqWord} :
    (∃ e, decode (.seq w) = .error e) ↔ ∀ row ∈ seqTable, row.1 ≠ w := by
  constructor
  · rintro ⟨e, he⟩ row hrow rfl
    cases he.symm.trans (decode_seq_of_mem row hrow)
  · intro hnone
    cases hd : decode (.seq w) with
    | error e => exact ⟨e, rfl⟩
    | ok i => exact absurd rfl (hnone _ (decode_seq_eq_ok_iff.mp hd))

/-- Settles O3. -/
theorem sequencingWordsDecodeByTheTable : Obligations.SequencingWordsDecodeByTheTable := by
  unfold Obligations.SequencingWordsDecodeByTheTable
  simpa [seqTable] using decode_seq_of_mem

/-- The list of R124: the pairs of state and phase with no row in the table of R101. -/
theorem no_row_iff_reserved (st ph : BitVec 4) :
    (∀ row ∈ seqTable, row.1 ≠ st ++ ph) ↔
      (10 ≤ st.toNat ∨ (ph ≠ 0 ∧ st ≠ 5 ∧ st ≠ 6 ∧ st ≠ 7) ∨ (st = 5 ∧ 4 ≤ ph.toNat) ∨
        (st = 6 ∧ 8 ≤ ph.toNat) ∨ (st = 7 ∧ 2 ≤ ph.toNat)) := by
  decide +revert

theorem step_of_reserved {s : State} {e : DecodeError} (h : decode (.seq s.seqWord) = .error e) :
    step s = .next s.reservedWord := by
  obtain ⟨i, hi, _⟩ | ⟨_, _, hs⟩ := step_cases s
  · cases hi.symm.trans h
  · exact hs

/-- Settles O6. -/
theorem reservedWordsGoToFault : Obligations.ReservedWordsGoToFault :=
  ⟨fun st ph => decode_seq_eq_error_iff.trans (no_row_iff_reserved st ph),
    fun s _ h => ⟨s.reservedWord, step_of_reserved h, rfl, rfl, rfl, rfl⟩⟩

/-! ## Operand fields (R115, R120, R122) -/

@[simp] theorem ofBool_beq_one (b : Bool) : (BitVec.ofBool b == 1#1) = b := by
  cases b <;> rfl

@[simp] theorem ofBool_of_beq_one (x : BitVec 1) : BitVec.ofBool (x == 1#1) = x := by
  decide +revert

@[simp] theorem decodeChannel_encodeChannel (ch : Channel) : decodeChannel (encodeChannel ch) = ch := by
  cases ch <;> rfl

@[simp] theorem encodeChannel_decodeChannel (x : BitVec 1) : encodeChannel (decodeChannel x) = x := by
  decide +revert

@[simp] theorem packValue_kind_num (v : ValueWord) : packValue (valueKind v) (valueNum v) = v :=
  BitVec.extractLsb'_append_extractLsb'

/-- A value that is sent has a kind (R115). -/
theorem kind_ne_zero_of_valueOccurs {kind : Vkind} {num : Vnum} (h : valueOccurs kind num = true) :
    kind ≠ 0 := by
  rintro rfl
  cases h

/-! ## The request ports and the diagnostic event, as relations -/

theorem decodeBusReq_eq_ok {op : BitVec 3} {cont : BitVec 1} {cmd : Byte} {adr : Address} {i : Instr}
    (h : decodeBusReq op cont cmd adr = .ok i) :
    (op = 0 ∧ i = .resetBus) ∨ (op = 1 ∧ i = .enumerateNext (cont == 1)) ∨
      (op = 2 ∧ i = .transaction cmd adr) ∨ (op = 3 ∧ i = .readByte) := by
  have hop {x : BitVec 3} (hx : op.toNat = x.toNat) : op = x := BitVec.eq_of_toNat_eq hx
  unfold decodeBusReq at h
  split at h
  · next e => cases h; exact .inl ⟨hop e, rfl⟩
  · next e => cases h; exact .inr (.inl ⟨hop e, rfl⟩)
  · next e => cases h; exact .inr (.inr (.inl ⟨hop e, rfl⟩))
  · next e => cases h; exact .inr (.inr (.inr ⟨hop e, rfl⟩))
  · cases h

theorem decodePersReq_eq_ok {sid : Sid} {v : ValueWord} {i : Instr}
    (h : decodePersReq sid v = .ok i) : i = .insertReading sid (valueKind v) (valueNum v) := by
  unfold decodePersReq at h
  split at h
  · cases h
  · cases h; rfl

theorem decodeDiag_eq_ok {sid : Sid} {kind : BitVec 4} {i : Instr}
    (h : decodeDiag sid kind = .ok i) : i = .diag sid kind := by
  unfold decodeDiag at h
  split at h
  · cases h; rfl
  · cases h

/-! ## Decoding and encoding -/

theorem decode_encode_insertReading {sid : Sid} {kind : Vkind} {num : Vnum} (h : kind ≠ 0) :
    decode (encode (.insertReading sid kind num)) = .ok (.insertReading sid kind num) := by
  simp only [encode, decode, decodePersReq, valueKind_packValue, valueNum_packValue, if_neg h]

theorem decode_encode {i : Instr} (h : i.wf = true) : decode (encode i) = .ok i := by
  cases i with
  | enumerateNext cont => exact congrArg (Except.ok ∘ Instr.enumerateNext) (ofBool_beq_one cont)
  | digitalWrite level => exact congrArg (Except.ok ∘ Instr.digitalWrite) (ofBool_beq_one level)
  | analogRead ch => exact congrArg (Except.ok ∘ Instr.analogRead) (decodeChannel_encodeChannel ch)
  | insertReading sid kind num =>
    obtain ⟨_, hval⟩ := Bool.and_eq_true_iff.mp h
    exact decode_encode_insertReading (kind_ne_zero_of_valueOccurs hval)
  | diag sid kind => exact if_pos h
  | _ => rfl

theorem encode_eq_of_busReq {op : BitVec 3} {cont : BitVec 1} {cmd : Byte} {adr : Address} {i : Instr}
    (h : decodeBusReq op cont cmd adr = .ok i) : encode i = canonicalWord (.busReq op cont cmd adr) := by
  obtain ⟨rfl, rfl⟩ | ⟨rfl, rfl⟩ | ⟨rfl, rfl⟩ | ⟨rfl, rfl⟩ := decodeBusReq_eq_ok h
  · rfl
  · simp [encode, canonicalWord]
  · rfl
  · rfl

theorem encode_decodePinReq (op level ch : BitVec 1) :
    encode (decodePinReq op level ch) = canonicalWord (.pinReq op level ch) := by
  by_cases hop : op = 0
  · simp [decodePinReq, encode, canonicalWord, hop]
  · obtain rfl : op = 1 := by bv_omega
    simp [decodePinReq, encode, canonicalWord]

/-- The word of an instruction is fixed up to the operand signals its operation does not name. -/
theorem encode_eq_canonicalWord {c : CodeWord} {i : Instr} (h : decode c = .ok i) :
    encode i = canonicalWord c := by
  cases c with
  | seq w => exact encode_of_mem_seqTable (w, i) (decode_seq_eq_ok_iff.mp h)
  | busReq op cont cmd adr => exact encode_eq_of_busReq h
  | pinReq op level ch => cases h; exact encode_decodePinReq op level ch
  | persReq sid v =>
    rw [decodePersReq_eq_ok h]
    exact congrArg (CodeWord.persReq sid) (packValue_kind_num v)
  | dlyReq us => cases h; rfl
  | diagEvent sid kind => rw [decodeDiag_eq_ok h]; rfl

/-- Settles O4. -/
theorem decodeAndEncodeAgree : Obligations.DecodeAndEncodeAgree :=
  ⟨fun _ => decode_encode, fun _ _ => encode_eq_canonicalWord⟩

end Sys2Proof.Machine
end

section
/-! Proof of O10: what a failed `reset_bus` and a failed `enumerate_next` do, and the statuses that read as one. -/

namespace Sys2Proof.Machine

variable {s : State} {a : BusAnswer} {rest : List BusAnswer}

/-! ## Statuses outside the signature (R121) -/

theorem resetResult_outside (h : a.status = 3) : resetResult a = .dataError := by
  simp [resetResult, h]

theorem enumResult_outside (h : a.status = 2 ∨ a.status = 3) : enumResult a = .noDevice := by
  obtain h | h := h <;> simp [enumResult, h]

/-! ## Failed startup calls: the whole next state (R251 to R253, R258) -/

/-- A fatal failure right after a bus call `ev`. -/
theorem raiseFatal_after_bus_call {e : ErrorKind} (he : isFatal e = true) (s : State)
    (rest : List BusAnswer) (ev : Event) :
    { s with busIn := rest, trace := s.trace ++ [ev] }.raiseFatal e = { s with
      busIn := rest, trace := s.trace ++ [ev, .diag 0 (errorCode e)],
      fault := true, faultCode := errorCode e, faultSid := 0, st := 9, ph := 0 } := by
  rw [raiseFatal_eq he]
  simp [State.emit, State.enterFault, stFault]

theorem exec_initReset_of_dataError (hbus : s.busIn = a :: rest) (hres : resetResult a = .dataError) :
    exec .initReset s = .next { s with
      busIn := rest, trace := s.trace ++ [.call .resetBus (.reset .dataError), .diag 0 3],
      fault := true, faultCode := 3, faultSid := 0, st := 9, ph := 0 } := by
  have hcall := callResetBus_cons hbus
  rw [hres] at hcall
  exact (await_of_eq_some hcall _).trans
    (congrArg Host.Outcome.next (raiseFatal_after_bus_call (e := .busDataError) rfl s rest
      (.call .resetBus (.reset .dataError))))

theorem exec_initEnum_of_noDevice (hbus : s.busIn = a :: rest) (hres : enumResult a = .noDevice) :
    exec .initEnum s = .next ({ s with
      busIn := rest
      trace := s.trace ++ [Event.call (.enumerateNext (s.eidx != 0)) (.enum .noDevice)] }.raiseFatal
        (if s.eidx = 0 then .noDevicesFound else .insufficientDevices)) := by
  have hcall := callEnumerateNext_cons (s.eidx != 0) hbus
  rw [hres] at hcall
  exact await_of_eq_some hcall _

theorem exec_initEnum_of_noDevice_first (hbus : s.busIn = a :: rest) (hres : enumResult a = .noDevice)
    (hfirst : s.eidx = 0) :
    exec .initEnum s = .next { s with
      busIn := rest, trace := s.trace ++ [.call (.enumerateNext false) (.enum .noDevice), .diag 0 1],
      fault := true, faultCode := 1, faultSid := 0, st := 9, ph := 0 } := by
  rw [exec_initEnum_of_noDevice hbus hres, if_pos hfirst, raiseFatal_after_bus_call rfl,
    bne_eq_false_iff_eq.mpr hfirst]
  rfl

theorem exec_initEnum_of_noDevice_later (hbus : s.busIn = a :: rest) (hres : enumResult a = .noDevice)
    (hlater : s.eidx ≠ 0) :
    exec .initEnum s = .next { s with
      busIn := rest, trace := s.trace ++ [.call (.enumerateNext true) (.enum .noDevice), .diag 0 2],
      fault := true, faultCode := 2, faultSid := 0, st := 9, ph := 0 } := by
  rw [exec_initEnum_of_noDevice hbus hres, if_neg hlater, raiseFatal_after_bus_call rfl,
    bne_iff_ne.mpr hlater]
  rfl

/-- Settles O10. -/
theorem statusesOutsideTheSignature : Obligations.StatusesOutsideTheSignature :=
  ⟨fun _ _ _ hbus h => exec_initReset_of_dataError hbus (resetResult_outside h),
    fun _ _ _ hbus h => exec_initEnum_of_noDevice_first hbus (enumResult_outside h),
    fun _ _ _ hbus h => exec_initEnum_of_noDevice_later hbus (enumResult_outside h)⟩

end Sys2Proof.Machine
end

section
/-! Proof of O24: runs as the list of the micro-operations they execute, the frame of `read_temperature` and the
samples of a dust batch. -/

namespace Sys2Proof.Machine

variable {s t u : State} {i : Instr} {is js : List Instr}

/-! ## Runs of named micro-operations -/

/-- From `s` the micro-operations of the list run one after the other and lead to `t`. -/
inductive Runs : List Instr → State → State → Prop where
  | nil (s : State) : Runs [] s s
  | cons {i : Instr} {is : List Instr} {s u t : State} :
      decode (.seq s.seqWord) = .ok i → exec i s = .next u → Runs is u t → Runs (i :: is) s t

theorem Runs.append (h : Runs is s u) (h' : Runs js u t) : Runs (is ++ js) s t := by
  induction h with
  | nil => exact h'
  | cons hd hexec _ ih => exact .cons hd hexec (ih h')

/-- The first of the micro-operations, from the row of the phase table. -/
theorem Runs.of_phase {x y : BitVec 4} (hst : s.st = x) (hph : s.ph = y) (hexec : exec i s = .next u)
    (h : Runs is u t) (hrow : (x, y, i) ∈ phaseTable := by decide) : Runs (i :: is) s t :=
  .cons (decode_of_phase (by rwa [hst, hph])) hexec h

/-- Such a run is the beginning of what the steps of the machine run. -/
theorem Runs.microOps_append (h : Runs is s t) (n : Nat) :
    microOps (is.length + n) s = is ++ microOps n t := by
  induction h with
  | nil => simp
  | cons hd hexec _ ih =>
    rw [List.length_cons, Nat.add_right_comm, microOps, hd]
    simp only [step_of_decode hd, hexec, ih, List.cons_append]

/-- One step runs the micro-operation the word selects, whatever its outcome. -/
theorem microOps_one (hd : decode (.seq s.seqWord) = .ok i) : microOps 1 s = [i] := by
  rw [microOps, hd]
  cases step s <;> rfl

/-- A run followed by one more micro-operation. -/
theorem Runs.microOps_concat (h : Runs is s t) (hd : decode (.seq t.seqWord) = .ok i) :
    microOps (is.length + 1) s = is ++ [i] := by
  rw [h.microOps_append, microOps_one hd]

/-! ## The frame of `read_temperature` (R148, R149) -/

theorem exec_rtCmd {a : BusAnswer} {rest : List BusAnswer} {adr : Address}
    (hadr : s.addr[s.pidx.toNat]? = some adr) (hbus : s.busIn = a :: rest) :
    exec .rtCmd s = .next { s with
      busIn := rest
      trace := s.trace ++ [.call (.transaction s.cfg.cmdReadScratchpad adr) .done]
      bcnt := 0, ph := 1 } := by
  have hread : s.readAddr s.pidx = some adr := hadr
  simp only [exec, execRtCmd, hread]
  exact await_of_eq_some (callTransaction_cons _ adr hbus) _

theorem exec_rtByte {a : BusAnswer} {rest : List BusAnswer} (hb : s.bcnt.toNat < 9)
    (hbus : s.busIn = a :: rest) :
    exec .rtByte s = .next { s with
      busIn := rest
      trace := s.trace ++ [.call .readByte (.byte a.rdata)]
      sp := s.sp.set s.bcnt.toNat a.rdata hb
      bcnt := BitVec.ofNat 4 (s.bcnt.toNat + 1)
      ph := if s.bcnt.toNat + 1 = 9 then 2 else s.ph } := by
  rw [exec, execRtByte, await_of_eq_some (callReadByte_cons hbus)]
  by_cases hlast : s.bcnt.toNat + 1 = 9
  · simp [State.writeSp, hb, scratchLen, hlast, State.setPh]
  · simp [State.writeSp, hb, scratchLen, hlast]

/-- About to read the last `n` bytes of the frame, all of them answered. -/
structure State.FrameLeft (s : State) (n : Nat) : Prop where
  st : s.st = 5
  ph : s.ph = if n = 0 then 2 else 1
  bytes : s.bcnt.toNat + n = 9
  answers : n ≤ s.busIn.length

theorem State.FrameLeft.runs_byte {n : Nat} (h : s.FrameLeft (n + 1)) :
    ∃ u, Runs [.rtByte] s u ∧ u.FrameLeft n := by
  obtain ⟨hst, hph, hbytes, hanswers⟩ := h
  rw [if_neg n.succ_ne_zero] at hph
  obtain ⟨a, rest, hbus⟩ := List.exists_cons_of_length_pos (Nat.zero_lt_of_lt hanswers)
  have hb : s.bcnt.toNat < 9 := by omega
  have hlast : s.bcnt.toNat + 1 = 9 ↔ n = 0 := by omega
  have hrun := Runs.of_phase hst hph (exec_rtByte hb hbus) (.nil _)
  refine ⟨_, hrun, hst, ?ph, ?bytes, ?answers⟩
  case ph => simp only [hlast, hph]
  case bytes => rw [BitVec.toNat_ofNat]; omega
  case answers => rw [hbus, List.length_cons] at hanswers; exact Nat.le_of_succ_le_succ hanswers

theorem State.FrameLeft.runs_bytes {n : Nat} (h : s.FrameLeft n) :
    ∃ t, Runs (List.replicate n .rtByte) s t ∧ t.FrameLeft 0 := by
  induction n generalizing s with
  | zero => exact ⟨s, .nil s, h⟩
  | succ n ih =>
    obtain ⟨u, hbyte, hu⟩ := h.runs_byte
    obtain ⟨t, hbytes, ht⟩ := ih hu
    exact ⟨t, hbyte.append hbytes, ht⟩

theorem runs_rtCmd {adr : Address} (hst : s.st = 5) (hph : s.ph = 0)
    (hadr : s.addr[s.pidx.toNat]? = some adr) (hlen : 10 ≤ s.busIn.length) :
    ∃ u, Runs [.rtCmd] s u ∧ u.FrameLeft 9 := by
  obtain ⟨a, rest, hbus⟩ := List.exists_cons_of_length_pos (Nat.zero_lt_of_lt hlen)
  rw [hbus, List.length_cons] at hlen
  exact ⟨_, .of_phase hst hph (exec_rtCmd hadr hbus) (.nil _),
    { st := hst, ph := rfl, bytes := rfl, answers := Nat.le_of_succ_le_succ hlen }⟩

/-! ## The samples of a dust batch (R172 to R178) -/

theorem exec_dsLedOn_of_ok {a : PinAnswer} {rest : List PinAnswer} (hpin : s.pinIn = a :: rest)
    (hok : a.err = false) :
    exec .dsLedOn s = .next { s with
      pinIn := rest, trace := s.trace ++ [.call (.digitalWrite true) (.status .ok)], ph := 1 } := by
  have hcall := callDigitalWrite_cons true hpin
  simp only [writeResult, hok, Bool.false_eq_true, if_false] at hcall
  exact await_of_eq_some hcall _

theorem exec_dsHoldRise {n : Nat} (hdly : s.dlyIn = n + 1) :
    exec .dsHoldRise s = .next { s with
      dlyIn := n, trace := s.trace ++ [.call (.delay 280) .done], ph := 2 } :=
  await_of_eq_some (callDelay_succ tRise hdly) _

theorem exec_dsSample {a : PinAnswer} {rest : List PinAnswer} (hpin : s.pinIn = a :: rest) :
    exec .dsSample s = .next { s with
      pinIn := rest, trace := s.trace ++ [.call (.analogRead .dust) (.count a.adc)],
      sum := narrow 14 (s.sum.toNat + a.adc.toNat), ph := 3 } :=
  await_of_eq_some (callAnalogRead_cons .dust hpin) _

theorem exec_dsHoldPulse {n : Nat} (hdly : s.dlyIn = n + 1) :
    exec .dsHoldPulse s = .next { s with
      dlyIn := n, trace := s.trace ++ [.call (.delay 40) .done], ph := 4 } :=
  await_of_eq_some (callDelay_succ tPulse hdly) _

theorem exec_dsLedOff_of_ok {a : PinAnswer} {rest : List PinAnswer} (hpin : s.pinIn = a :: rest)
    (hok : a.err = false) :
    exec .dsLedOff s = .next { s with
      pinIn := rest, trace := s.trace ++ [.call (.digitalWrite false) (.status .ok)], ph := 5 } := by
  have hcall := callDigitalWrite_cons false hpin
  simp only [writeResult, hok, Bool.false_eq_true, if_false] at hcall
  exact await_of_eq_some hcall _

theorem exec_dsHoldSettle {n : Nat} (hdly : s.dlyIn = n + 1) :
    exec .dsHoldSettle s = .next { s with
      dlyIn := n, trace := s.trace ++ [.call (.delay 9680) .done],
      k := narrow 5 (s.k.toNat + 1), ph := if s.k.toNat + 1 = 16 then 6 else 0 } := by
  rw [exec, execDsHoldSettle, await_of_eq_some (callDelay_succ tSettle hdly)]
  by_cases hlast : s.k.toNat + 1 = 16
  · simp [nDust, tSettle, hlast, State.setPh]
  · simp [nDust, tSettle, hlast, State.setPh]

/-- In the dust leg at phase `y` with `k` samples counted, and what the environment is still to answer. -/
structure State.DustAt (s : State) (y : BitVec 4) (k : Nat) (pins : List PinAnswer) (dly : Nat) : Prop where
  st : s.st = 6
  ph : s.ph = y
  count : s.k.toNat = k
  pins : s.pinIn = pins
  delays : s.dlyIn = dly

section Sample

variable {k n : Nat} {a : PinAnswer} {rest : List PinAnswer}

theorem State.DustAt.runs_ledOn (h : s.DustAt 0 k (a :: rest) n) (hok : a.err = false) :
    ∃ u, Runs [.dsLedOn] s u ∧ u.DustAt 1 k rest n :=
  ⟨_, .of_phase h.st h.ph (exec_dsLedOn_of_ok h.pins hok) (.nil _),
    { st := h.st, ph := rfl, count := h.count, pins := rfl, delays := h.delays }⟩

theorem State.DustAt.runs_holdRise (h : s.DustAt 1 k rest (n + 1)) :
    ∃ u, Runs [.dsHoldRise] s u ∧ u.DustAt 2 k rest n :=
  ⟨_, .of_phase h.st h.ph (exec_dsHoldRise h.delays) (.nil _),
    { st := h.st, ph := rfl, count := h.count, pins := h.pins, delays := rfl }⟩

theorem State.DustAt.runs_sample (h : s.DustAt 2 k (a :: rest) n) :
    ∃ u, Runs [.dsSample] s u ∧ u.DustAt 3 k rest n :=
  ⟨_, .of_phase h.st h.ph (exec_dsSample h.pins) (.nil _),
    { st := h.st, ph := rfl, count := h.count, pins := rfl, delays := h.delays }⟩

theorem State.DustAt.runs_holdPulse (h : s.DustAt 3 k rest (n + 1)) :
    ∃ u, Runs [.dsHoldPulse] s u ∧ u.DustAt 4 k rest n :=
  ⟨_, .of_phase h.st h.ph (exec_dsHoldPulse h.delays) (.nil _),
    { st := h.st, ph := rfl, count := h.count, pins := h.pins, delays := rfl }⟩

theorem State.DustAt.runs_ledOff (h : s.DustAt 4 k (a :: rest) n) (hok : a.err = false) :
    ∃ u, Runs [.dsLedOff] s u ∧ u.DustAt 5 k rest n :=
  ⟨_, .of_phase h.st h.ph (exec_dsLedOff_of_ok h.pins hok) (.nil _),
    { st := h.st, ph := rfl, count := h.count, pins := rfl, delays := h.delays }⟩

theorem State.DustAt.runs_holdSettle (h : s.DustAt 5 k rest (n + 1)) (hk : k < 16) :
    ∃ u, Runs [.dsHoldSettle] s u ∧ u.DustAt (if k + 1 = 16 then 6 else 0) (k + 1) rest n := by
  have hcount := h.count
  exact ⟨_, .of_phase h.st h.ph (exec_dsHoldSettle h.delays) (.nil _),
    { st := h.st, ph := by rw [hcount], count := by rw [toNat_narrow (by omega), hcount]
      pins := h.pins, delays := rfl }⟩

end Sample

/-- The answers to the three pin calls of each sample, no write failing. -/
def sampleAnswers (counts : List Count) : List PinAnswer :=
  counts.flatMap fun r => [⟨false, 0⟩, ⟨false, r⟩, ⟨false, 0⟩]

/-- One sample (R126), its three pin calls and three delays answered. -/
theorem State.DustAt.runs_sampleOps {k n : Nat} {r : Count} {counts : List Count} {rest : List PinAnswer}
    (h : s.DustAt 0 k (sampleAnswers (r :: counts) ++ rest) (n + 3)) (hk : k < 16) :
    ∃ u, Runs sampleOps s u ∧
      u.DustAt (if k + 1 = 16 then 6 else 0) (k + 1) (sampleAnswers counts ++ rest) n := by
  obtain ⟨s1, hon, h⟩ := h.runs_ledOn rfl
  obtain ⟨s2, hrise, h⟩ := h.runs_holdRise
  obtain ⟨s3, hsample, h⟩ := h.runs_sample
  obtain ⟨s4, hpulse, h⟩ := h.runs_holdPulse
  obtain ⟨s5, hoff, h⟩ := h.runs_ledOff rfl
  obtain ⟨s6, hsettle, h⟩ := h.runs_holdSettle hk
  exact ⟨s6, hon.append (hrise.append (hsample.append (hpulse.append (hoff.append hsettle)))), h⟩

/-- The last samples of a batch, one for each count, lead to the conversion. -/
theorem State.DustAt.runs_samples {k n : Nat} {counts : List Count} {rest : List PinAnswer}
    (h : s.DustAt (if k = 16 then 6 else 0) k (sampleAnswers counts ++ rest) (3 * counts.length + n))
    (hk : k + counts.length = 16) :
    ∃ t, Runs (List.replicate counts.length sampleOps).flatten s t ∧ t.DustAt 6 16 rest n := by
  induction counts generalizing s k with
  | nil =>
    obtain rfl : k = 16 := hk
    exact ⟨s, .nil s, by simpa [sampleAnswers] using h⟩
  | cons r counts ih =>
    rw [List.length_cons] at hk h
    have hlt : k < 16 := by omega
    have hdly : 3 * (counts.length + 1) + n = 3 * counts.length + n + 3 := by omega
    rw [if_neg hlt.ne, hdly] at h
    obtain ⟨u, hsample, hu⟩ := h.runs_sampleOps hlt
    obtain ⟨t, hsamples, ht⟩ := ih hu (by omega)
    exact ⟨t, hsample.append hsamples, ht⟩

/-! ## The expansions (R126) -/

theorem microOps_readTemperature {adr : Address} (hw : s.seqWord = 0x50)
    (hadr : s.addr[s.pidx.toNat]? = some adr) (hlen : 10 ≤ s.busIn.length) :
    microOps 11 s = PseudoOp.readTemperature.expand := by
  obtain ⟨hst, hph⟩ : s.st = 5 ∧ s.ph = 0 := packSeq_inj hw
  obtain ⟨u, hcmd, hu⟩ := runs_rtCmd hst hph hadr hlen
  obtain ⟨t, hbytes, ht⟩ := hu.runs_bytes
  exact (hcmd.append hbytes).microOps_concat (decode_of_phase (by rw [ht.st, ht.ph]; decide))

theorem microOps_dustBatch {counts : List Count} {rest : List PinAnswer} (hw : s.seqWord = 0x60)
    (hk : s.k = 0) (hcounts : counts.length = 16) (hpins : s.pinIn = sampleAnswers counts ++ rest)
    (hdly : 48 ≤ s.dlyIn) : microOps 97 s = PseudoOp.dustBatch.expand := by
  obtain ⟨hst, hph⟩ : s.st = 6 ∧ s.ph = 0 := packSeq_inj hw
  have hstart : s.DustAt 0 0 (sampleAnswers counts ++ rest) (3 * counts.length + (s.dlyIn - 48)) :=
    { st := hst, ph := hph, count := by rw [hk]; rfl, pins := hpins, delays := by omega }
  obtain ⟨t, hrun, ht⟩ := State.DustAt.runs_samples (k := 0) hstart (by omega)
  rw [hcounts] at hrun
  exact hrun.microOps_concat (decode_of_phase (by rw [ht.st, ht.ph]; decide))

/-- Settles O24. -/
theorem pseudoOperationsRunTheirExpansions : Obligations.PseudoOperationsRunTheirExpansions :=
  ⟨rfl, rfl, fun _ _ => microOps_readTemperature, fun _ _ _ => microOps_dustBatch⟩

end Sys2Proof.Machine
end

section
/-! Proofs of O52 and O57: the default CRC as a shift register, and the signed reading of the temperature field. -/

namespace Sys2Proof.Machine

/-! ## One byte of the CRC register (R144) -/

/-- One shift of the register: the bit that falls out on the right feeds back the constant. -/
def crcShift (x : Byte) : Byte := if x.getLsbD 0 then (x >>> 1) ^^^ 0x8C else x >>> 1

/-- The feedback constant has its top bit set, so the top bit after a shift tells which bit fell out. -/
theorem getLsbD_crcShift_top (x : Byte) : (crcShift x).getLsbD 7 = x.getLsbD 0 := by
  unfold crcShift
  split <;> simp_all

theorem crcShift_injective : Function.Injective crcShift := by
  intro x y h
  have hlow : x.getLsbD 0 = y.getLsbD 0 := by
    rw [← getLsbD_crcShift_top x, h, getLsbD_crcShift_top]
  have hshift : x >>> 1 = y >>> 1 := by
    unfold crcShift at h
    rw [hlow] at h
    split at h
    · exact (BitVec.xor_left_inj _).mp h
    · exact h
  apply BitVec.eq_of_getLsbD_eq
  intro i _
  cases i with
  | zero => exact hlow
  | succ i => simpa [Nat.add_comm] using congrArg (·.getLsbD i) hshift

/-- The register and the byte enter only through their difference; what is left of the byte is what the loop has
not shifted in yet. -/
theorem crcBits_xor (n : Nat) (c b : Byte) : crcBits n c b ^^^ (b >>> n) = crcShift^[n] (c ^^^ b) := by
  induction n generalizing c b with
  | zero => simp [crcBits]
  | succ n ih =>
    have hstep : (if c.getLsbD 0 ^^ b.getLsbD 0 then (c >>> 1) ^^^ 0x8C else c >>> 1) ^^^ (b >>> 1) =
        crcShift (c ^^^ b) := by
      rw [crcShift, BitVec.getLsbD_xor, BitVec.ushiftRight_xor_distrib]
      split
      · rw [BitVec.xor_assoc, BitVec.xor_assoc, BitVec.xor_comm (0x8C)]
      · rfl
    rw [Function.iterate_succ_apply, ← hstep, ← ih, ← BitVec.shiftRight_add, Nat.add_comm 1 n]
    rfl

theorem crcByte_eq_iterate (c b : Byte) : crcByte c b = crcShift^[8] (c ^^^ b) := by
  have hgone : b >>> 8 = 0 := BitVec.ushiftRight_eq_zero le_rfl
  rw [← crcBits_xor, hgone]
  exact BitVec.xor_zero.symm

theorem crcByte_inj {c c' b b' : Byte} : crcByte c b = crcByte c' b' ↔ c ^^^ b = c' ^^^ b' := by
  rw [crcByte_eq_iterate, crcByte_eq_iterate, (crcShift_injective.iterate 8).eq_iff]

/-- A register that takes its own content as a byte is cleared. -/
@[simp] theorem crcByte_self (c : Byte) : crcByte c c = 0 := by
  rw [crcByte_eq_iterate, BitVec.xor_self]
  rfl

/-! ## The register over a byte string -/

theorem foldl_crcByte_injective (bs : List Byte) : Function.Injective (bs.foldl crcByte) := by
  induction bs with
  | nil => exact fun _ _ h => h
  | cons b bs ih => exact fun _ _ h => (BitVec.xor_left_inj _).mp (crcByte_inj.mp (ih h))

/-- Changing one byte of a string changes the register, whatever it started from. -/
theorem foldl_crcByte_set_ne {bs : List Byte} {i : Nat} (hi : i < bs.length) {b : Byte} (hb : b ≠ bs[i])
    (c : Byte) : (bs.set i b).foldl crcByte c ≠ bs.foldl crcByte c := by
  induction bs generalizing i c with
  | nil => cases hi
  | cons a bs ih =>
    cases i with
    | zero => exact fun h => hb ((BitVec.xor_right_inj _).mp (crcByte_inj.mp (foldl_crcByte_injective bs h)))
    | succ i => exact ih (Nat.lt_of_succ_lt_succ hi) hb _

theorem crcRegister_append_self (bs : List Byte) : crcRegister (bs ++ [crcRegister bs]) = 0 := by
  rw [crcRegister, List.foldl_append]
  exact crcByte_self _

theorem xor_bit_ne (b : Byte) (j : Fin 8) : b ^^^ (1#8 <<< j.val) ≠ b := by
  have hbit : 1#8 <<< j.val ≠ 0#8 := by decide +revert
  exact fun h => hbit ((BitVec.xor_right_inj b).mp (h.trans BitVec.xor_zero.symm))

theorem crcOneWire_detectsSingleBit : DetectsSingleBit crcOneWire := by
  intro x i j
  rw [crcOneWire, crcOneWire, flipBit, Vector.toList_set]
  exact foldl_crcByte_set_ne (by simp) (by simpa using xor_bit_ne x[i] j) _

theorem crcOneWire_zeros : crcOneWire (Vector.replicate 8 0) = 0 := by
  simp [crcOneWire, crcRegister, Vector.toList_replicate, List.replicate]

/-- The inner loop of R144 reads the byte's bits from the least significant one up. -/
theorem crcBits_eq_foldl (n : Nat) (c b : Byte) :
    crcBits n c b = (List.range n).foldl (fun (reg : Byte) j =>
      if reg.getLsbD 0 != b.getLsbD j then (reg >>> 1) ^^^ 0x8C else reg >>> 1) c := by
  induction n generalizing c b with
  | zero => rfl
  | succ n ih =>
    rw [crcBits, ih, List.range_succ_eq_map, List.foldl_cons, List.foldl_map]
    simp [Nat.add_comm]

/-- Settles O52: the inner loop is the fold over the bits, and the rest follows from `crcByte_inj`. -/
theorem defaultCrcDetectsSingleBits : Obligations.DefaultCrcDetectsSingleBits := by
  refine ⟨fun x => ?_, crcOneWire_detectsSingleBit, crcOneWire_zeros,
    fun x => crcRegister_append_self x.toList⟩
  simp only [← crcBits_eq_foldl]
  rfl

/-! ## The temperature field (R146) -/

theorem toNat_rawField (b0 b1 : Byte) : (rawField b0 b1).toNat = 256 * b1.toNat + b0.toNat := by
  rw [rawField, BitVec.toNat_append, ← Nat.shiftLeft_add_eq_or_of_lt b0.isLt, Nat.shiftLeft_eq]
  omega

/-- Two's complement on 16 bits. -/
theorem decodeRaw_eq (b0 b1 : Byte) : decodeRaw b0 b1 =
    if b1.getLsbD 7 then ((256 * b1.toNat + b0.toNat : Nat) : Int) - 65536
    else (256 * b1.toNat + b0.toNat : Nat) := by
  have hneg : decodeRaw b0 b1 < 0 ↔ b1.getLsbD 7 = true := decodeRaw_neg_iff b0 b1
  have hcond := BitVec.toInt_eq_toNat_cond (rawField b0 b1)
  rw [toNat_rawField, ← decodeRaw] at hcond
  rw [if_congr hneg.symm rfl rfl]
  split_ifs at hcond ⊢ <;> omega

/-- Settles O57: negating `~raw + 1` is subtracting `2 ^ 16`, since a negative field is not 0. -/
theorem signedReadingIsTheDocumentsProcedure : Obligations.SignedReadingIsTheDocumentsProcedure := by
  intro b0 b1
  have heq := decodeRaw_eq b0 b1
  have hbounds := decodeRaw_bounds b0 b1
  refine ⟨?_, fun hneg => by rw [heq, if_pos hneg], hbounds⟩
  split_ifs at heq ⊢ <;> omega

end Sys2Proof.Machine
end

section
/-! Proofs of O12, O14, O15, O53 and O54: the steps of `read_temperature`. -/

namespace Sys2Proof.Machine

variable {s t : State}

/-! ## RT_CMD (R148) -/

/-- The probe advance leads to `START_CONVERSION` or to `READ_DUST` (R218). -/
theorem State.advance_st (s : State) : s.advance.st = 3 ∨ s.advance.st = 6 := by
  obtain ⟨_, h⟩ | ⟨_, h⟩ := advance_cases s <;> rw [h]
  · exact .inl rfl
  · exact .inr rfl

theorem State.advance_st_ne {x : BitVec 4} (hx : x ≠ 3 ∧ x ≠ 6 := by decide) : s.advance.st ≠ x := by
  obtain h | h := s.advance_st <;> rw [h]
  · exact hx.1.symm
  · exact hx.2.symm

/-- The rows of the transition table (R225) that lead to `RT_CMD`: every other row leads to another state, or
inside `READ_TEMPERATURE` to another phase. -/
theorem Transition.into_rtCmd (h : Transition s t) (hst : t.st = 5) (hph : t.ph = 0) :
    (s.st = 4 ∧ s.ph = 0) ∨ t = s := by
  cases h with
  | awaitConversion hst' hph' => exact .inl ⟨hst', hph'⟩
  | waits | fault => exact .inr rfl
  | rtCmd | rtByteLast | rtCheckMatch => cases hph
  | rtByteMore _ _ hph' => cases hph'.symm.trans hph
  | rtCheckRecover | rtPersistOk | rtPersistRecover => exact absurd hst State.advance_st_ne
  | initEnumMore hst' | dsLedOnOk hst' | dsHoldRise hst' | dsSample hst' | dsHoldPulse hst'
  | dsLedOffOk hst' | dsHoldSettleMore hst' | dsHoldSettleLast hst' | dsConvert hst' | hmSample hst' =>
    cases hst'.symm.trans hst
  | _ => cases hst

/-- Settles O12: `exec_rtCmd` is the step itself, and the transition table gives the entries. -/
theorem rtCmdAddressesTheCurrentProbe : Obligations.RtCmdAddressesTheCurrentProbe := by
  refine ⟨rfl, fun _ _ _ _ => exec_rtCmd, fun s t hstep hword => ?_⟩
  obtain ⟨hst, hph⟩ : t.st = 5 ∧ t.ph = 0 := packSeq_inj hword
  obtain ⟨hst, hph⟩ | rfl := (transition_of_step hstep).into_rtCmd hst hph
  · exact .inl (seqWord_of_phase hst hph)
  · exact .inr ⟨hword, rfl⟩

/-! ## RT_BYTE (R149) -/

theorem Runs.runSteps_eq {is : List Instr} (h : Runs is s t) : runSteps is.length s = .next t := by
  induction h with
  | nil => rfl
  | cons hd hexec _ ih => simp only [List.length_cons, runSteps, step_of_decode hd, hexec, ih]

/-- What reading the bytes of `frame` does between `s` and `t`, beside the phase and the counter. -/
structure State.BytesRead (s : State) (frame rest : List BusAnswer) (t : State) : Prop where
  sp : t.sp.toList = s.sp.toList.take s.bcnt.toNat ++ frame.map (·.rdata)
  busIn : t.busIn = rest
  trace : t.trace = s.trace ++ frame.map fun a => .call .readByte (.byte a.rdata)

/-- The answered reads from byte `bcnt` on fill the rest of `SP` in order. -/
theorem State.FrameLeft.runs_frame {frame rest : List BusAnswer} (h : s.FrameLeft frame.length)
    (hbus : s.busIn = frame ++ rest) :
    ∃ t, Runs (List.replicate frame.length .rtByte) s t ∧ t.FrameLeft 0 ∧ s.BytesRead frame rest t := by
  induction frame generalizing s with
  | nil =>
    have hbytes : s.bcnt.toNat = 9 := h.bytes
    exact ⟨s, .nil s, h, { sp := by simp [hbytes], busIn := hbus, trace := by simp }⟩
  | cons a frame ih =>
    have hb : s.bcnt.toNat < 9 := by have := h.bytes; rw [List.length_cons] at this; omega
    obtain ⟨u, hbyte, hu⟩ := h.runs_byte
    have hexec : exec .rtByte s = .next u := by
      cases hbyte with
      | cons _ hexec hnil => cases hnil; exact hexec
    rw [exec_rtByte hb hbus] at hexec
    cases hexec
    obtain ⟨t, hbytes, ht, hread⟩ := ih hu rfl
    have hcount : (BitVec.ofNat 4 (s.bcnt.toNat + 1)).toNat = s.bcnt.toNat + 1 := by
      rw [BitVec.toNat_ofNat]
      omega
    refine ⟨t, hbyte.append hbytes, ht, { sp := ?sp, busIn := hread.busIn, trace := ?trace }⟩
    case sp => simp [hread.sp, hcount, List.take_add_one, Vector.toList_set, List.take_set_of_le, hb]
    case trace => simp [hread.trace]

/-- Settles O14: `exec_rtByte` is the step itself, and a whole frame is nine of them from byte 0. -/
theorem rtByteReadsANineByteFrame : Obligations.RtByteReadsANineByteFrame := by
  refine ⟨rfl, fun s a rest hb hbus => ?byte, fun s frame rest hword hcount hlen hbus => ?frame⟩
  case byte =>
    have hnext : BitVec.ofNat 4 (s.bcnt.toNat + 1) = s.bcnt + 1 := by bv_omega
    have hlast : s.bcnt.toNat + 1 = 9 ↔ s.bcnt = 8 := by bv_omega
    simp only [exec_rtByte hb hbus, hnext, hlast]
  case frame =>
    obtain ⟨hst, hph⟩ : s.st = 5 ∧ s.ph = 1 := packSeq_inj hword
    have hleft : s.FrameLeft frame.length := by
      rw [hlen]
      exact { st := hst, ph := hph, bytes := by rw [hcount]; rfl, answers := by simp [hbus, hlen] }
    obtain ⟨t, hrun, ht, hread⟩ := hleft.runs_frame hbus
    have hsteps := hrun.runSteps_eq
    rw [List.length_replicate, hlen] at hsteps
    exact ⟨t, hsteps, by simp [hread.sp, hcount], seqWord_of_phase ht.st ht.ph,
      BitVec.eq_of_toNat_eq ht.bytes, hread.busIn, hread.trace⟩

/-! ## RT_CHECK (R150) -/

theorem sidTemp_of_lt {cfg : Config} {k : BitVec 8} (h : k.toNat < cfg.nProbes) : sidTemp k = k + 1 :=
  sidTemp_eq (by have := nProbes_bounds cfg; omega)

theorem crcMatch_eq_false_iff (s : State) :
    crcMatch s = false ↔ crc8 s.cfg (framePayload s.sp) ≠ s.sp[8] :=
  beq_eq_false_iff_ne

theorem exec_rtCheck_of_match (h : crcMatch s = true) :
    exec .rtCheck s = .next { s with
      vkind := 1, vnum := vnumOf (decodeRaw s.sp[0] s.sp[1]), ph := 3 } :=
  if_pos h

/-- The failure follows the policy (R256, R259). -/
theorem exec_rtCheck_of_mismatch (h : crcMatch s = false) (hp : s.pidx.toNat < s.cfg.nProbes) :
    (s.pol = .halt ∧ exec .rtCheck s = .next { s with
      trace := s.trace ++ [.diag (s.pidx + 1) 6]
      fault := true, faultCode := 6, faultSid := s.pidx + 1, st := 9, ph := 0 }) ∨
    (s.pol = .recover ∧ exec .rtCheck s = .next
      (State.advance { s with trace := s.trace ++ [.diag (s.pidx + 1) 6] })) := by
  have hexec : exec .rtCheck s = .next (s.raise .crcMismatch (s.pidx + 1) State.advance) := by
    rw [← sidTemp_of_lt hp]
    exact if_neg (by simp [h])
  rw [hexec]
  obtain ⟨hpol, hraise⟩ | ⟨hpol, hraise⟩ := raise_policy (s := s) (e := .crcMismatch) nofun rfl
    (s.pidx + 1) State.advance <;> rw [hraise]
  · exact .inl ⟨hpol, rfl⟩
  · exact .inr ⟨hpol, rfl⟩

/-- Settles O15: the two branches of the CRC comparison, the second by policy. -/
theorem rtCheckDecodesOrRaises : Obligations.RtCheckDecodesOrRaises := by
  refine ⟨rfl, fun s => ⟨fun hcrc => exec_rtCheck_of_match ((crcMatch_iff s).mpr hcrc),
    fun hcrc hp hpol => ?halt, fun hcrc hp hpol => ?recover⟩⟩
  case halt =>
    obtain ⟨_, hexec⟩ | ⟨hpol', _⟩ := exec_rtCheck_of_mismatch ((crcMatch_eq_false_iff s).mpr hcrc) hp
    · exact hexec
    · cases hpol.symm.trans hpol'
  case recover =>
    obtain ⟨hpol', _⟩ | ⟨_, hexec⟩ := exec_rtCheck_of_mismatch ((crcMatch_eq_false_iff s).mpr hcrc) hp
    · cases hpol.symm.trans hpol'
    · exact hexec

/-! ## A frame with one bit inverted (R143) -/

theorem getElem_framePayload (sp : Vector Byte 9) {i : Nat} (hi : i < 8) : (framePayload sp)[i] = sp[i] := by
  interval_cases i <;> rfl

theorem framePayload_set (sp : Vector Byte 9) (b : Byte) {i : Nat} (hi : i < 8) :
    framePayload (sp.set i b) = (framePayload sp).set i b := by
  ext j hj
  simp only [getElem_framePayload, Vector.getElem_set]

theorem framePayload_flip (sp : Vector Byte 9) (i j : Fin 8) :
    framePayload (sp.set i.val (sp[i.val] ^^^ (1#8 <<< j.val))) = flipBit (framePayload sp) i j := by
  rw [framePayload_set _ _ i.isLt, ← getElem_framePayload sp i.isLt]
  rfl

theorem crc8_flipBit_ne_of_oneWire {cfg : Config} (h : cfg.crc = .oneWire) (x : Vector Byte 8)
    (i j : Fin 8) : crc8 cfg (flipBit x i j) ≠ crc8 cfg x := by
  simp only [crc8, h]
  exact crcOneWire_detectsSingleBit x i j

/-- Settles O53: the CRC of the changed payload is not byte 8, which is the CRC of the unchanged one. -/
theorem singleBitErrorsAreRejected : Obligations.SingleBitErrorsAreRejected := by
  intro s i j hdetects hmatch hp bad
  have hflip : crc8 s.cfg (flipBit (framePayload s.sp) i j) ≠ crc8 s.cfg (framePayload s.sp) :=
    hdetects.elim (fun h => crc8_flipBit_ne_of_oneWire h _ i j) id
  have hlast : bad.sp[8] = s.sp[8] := Vector.getElem_set_ne (by omega) (by omega) (by omega)
  have hno : crcMatch bad = false := by
    rw [crcMatch_eq_false_iff, hlast, ← (crcMatch_iff s).mp hmatch, framePayload_flip]
    exact hflip
  obtain ⟨_, hexec⟩ | ⟨_, hexec⟩ := exec_rtCheck_of_mismatch hno hp
  · exact ⟨_, hexec, rfl, rfl, rfl⟩
  · exact ⟨_, hexec, State.advance_vkind _, State.advance_vnum _, State.advance_trace _⟩

/-! ## The temperature round trip (R151) -/

/-- The only temperature in range with these two bytes, since the field is congruent to it modulo `2 ^ 16`. -/
theorem decodeRaw_of_field {b0 b1 : Byte} {t16 : Int} (hlo : -32768 ≤ t16) (hhi : t16 ≤ 32767)
    (h0 : b0 = BitVec.ofInt 8 (t16 % 65536 % 256)) (h1 : b1 = BitVec.ofInt 8 (t16 % 65536 / 256)) :
    decodeRaw b0 b1 = t16 := by
  have hbounds := decodeRaw_bounds b0 b1
  have heq := decodeRaw_eq b0 b1
  have hlow : b0.toNat = (t16 % 65536 % 256 % 256).toNat := by rw [h0, BitVec.toNat_ofInt]; rfl
  have hhigh : b1.toNat = (t16 % 65536 / 256 % 256).toNat := by rw [h1, BitVec.toNat_ofInt]; rfl
  split_ifs at heq <;> omega

/-- Settles O54: the bytes decode to `t16`, and the matching byte 8 lets `RT_CHECK` write it. -/
theorem temperatureRoundTrip : Obligations.TemperatureRoundTrip := by
  intro s t16 hlo hhi h0 h1 hcrc
  have hraw : decodeRaw s.sp[0] s.sp[1] = t16 := decodeRaw_of_field hlo hhi h0 h1
  have hnum := toInt_vnumOf_decodeRaw s.sp[0] s.sp[1]
  have hval := valueQ_temp s.sp[0] s.sp[1]
  rw [tempQ_eq] at hval
  refine ⟨_, exec_rtCheck_of_match ((crcMatch_iff s).mpr hcrc.symm), rfl, ?num, ?value, rfl⟩
  case num => exact hnum.trans hraw
  case value => rw [← hraw]; exact hval

end Sys2Proof.Machine
end

section
/-! Proofs of O18 to O22: the micro-operations of a dust sample, and the batch of sixteen. -/

namespace Sys2Proof.Machine

variable {s t u : State}

/-! ## The emitter writes (R173, R177, R179) -/

/-- The write that drives the emitter to `level`. -/
def emitterWrite (level : Bool) : Instr := if level then .dsLedOn else .dsLedOff

theorem exec_emitterWrite_of_err {a : PinAnswer} {rest : List PinAnswer} (hpin : s.pinIn = a :: rest)
    (herr : a.err = true) (level : Bool) :
    exec (emitterWrite level) s = .next (State.batchFailure { s with
      pinIn := rest, trace := s.trace ++ [.call (.digitalWrite level) (.status .error)] }) := by
  have hcall := callDigitalWrite_cons level hpin
  simp only [writeResult, herr, if_true] at hcall
  cases level
  case true => exact await_of_eq_some hcall _
  case false => exact await_of_eq_some hcall _

/-- A failed batch stops or goes on by policy, after its two diagnostics. -/
theorem exec_emitterWrite_failure {a : PinAnswer} {rest : List PinAnswer} (hpin : s.pinIn = a :: rest)
    (herr : a.err = true) (level : Bool) :
    (s.pol = .halt ∧ exec (emitterWrite level) s = .next { s with
      pinIn := rest
      trace := s.trace ++ [.call (.digitalWrite level) (.status .error),
        .diag (sidDust s.cfg) 5, .diag (sidDust s.cfg) 7]
      fault := true, faultCode := 7, faultSid := sidDust s.cfg, st := 9, ph := 0 }) ∨
    (s.pol = .recover ∧ exec (emitterWrite level) s = .next { s with
      pinIn := rest
      trace := s.trace ++ [.call (.digitalWrite level) (.status .error),
        .diag (sidDust s.cfg) 5, .diag (sidDust s.cfg) 7]
      st := 7, ph := 0 }) := by
  rw [exec_emitterWrite_of_err hpin herr]
  obtain ⟨hpol, hfail⟩ | ⟨hpol, hfail⟩ := batchFailure_cases { s with
    pinIn := rest, trace := s.trace ++ [.call (.digitalWrite level) (.status .error)] } <;> rw [hfail]
  · exact .inl ⟨hpol, by simp [State.enterFault, State.emit, errorCode, stFault]⟩
  · exact .inr ⟨hpol, by simp [State.goto, State.emit, stReadHumidity]⟩

/-- Settles O18: an answered write without error goes on, and a failed one ends by policy. -/
theorem emitterWritesGoOnOrFailTheBatch : Obligations.EmitterWritesGoOnOrFailTheBatch := by
  refine ⟨rfl, rfl, fun s a rest hpin => ⟨exec_dsLedOn_of_ok hpin, exec_dsLedOff_of_ok hpin,
    fun level herr hpol => ?halt, fun level herr hpol => ?recover⟩⟩
  case halt =>
    obtain ⟨_, hexec⟩ | ⟨hpol', _⟩ := exec_emitterWrite_failure hpin herr level
    · exact hexec
    · cases hpol.symm.trans hpol'
  case recover =>
    obtain ⟨hpol', _⟩ | ⟨_, hexec⟩ := exec_emitterWrite_failure hpin herr level
    · cases hpol.symm.trans hpol'
    · exact hexec

/-! ## The holds and the sample (R174 to R176, R178) -/

/-- Settles O19. -/
theorem riseAndPulseHolds : Obligations.RiseAndPulseHolds :=
  ⟨rfl, rfl, fun _ _ hdly => ⟨exec_dsHoldRise hdly, exec_dsHoldPulse hdly⟩⟩

/-- Settles O20: a sum that fits its register is held exactly. -/
theorem dsSampleAddsTheCount : Obligations.DsSampleAddsTheCount :=
  ⟨rfl, fun _ _ _ hpin hfits => ⟨_, toNat_narrow hfits, exec_dsSample hpin⟩⟩

/-- Counting up within the width is the register's own increment. -/
theorem narrow_toNat_add_one {w : Nat} {x : BitVec w} (h : x.toNat + 1 < 2 ^ w) :
    narrow w (x.toNat + 1) = x + 1 := by
  apply BitVec.eq_of_toNat_eq
  have hone : (1 : BitVec w).toNat = 1 := Nat.mod_eq_of_lt (show 1 < 2 ^ w by omega)
  rw [toNat_narrow h, BitVec.toNat_add, hone, Nat.mod_eq_of_lt h]

/-- Settles O21: below 16 the count does not leave its register. -/
theorem dsHoldSettleCountsTheSample : Obligations.DsHoldSettleCountsTheSample := by
  refine ⟨rfl, fun s n hdly hk => ?_⟩
  have hnext : narrow 5 (s.k.toNat + 1) = s.k + 1 := narrow_toNat_add_one (by omega)
  have hlast : s.k.toNat + 1 = 16 ↔ s.k = 15 := by bv_omega
  simp only [exec_dsHoldSettle hdly, hnext, hlast]

/-! ## The batch of sixteen samples (R172) -/

/-- The six calls of one sample with count `r` and no failed write. -/
def sampleEvents (r : Count) : List Event :=
  [.call (.digitalWrite true) (.status .ok), .call (.delay 280) .done,
    .call (.analogRead .dust) (.count r), .call (.delay 40) .done,
    .call (.digitalWrite false) (.status .ok), .call (.delay 9680) .done]

/-- What sampling `counts` does to the batch sum and the trace between `s` and `t`. -/
structure State.Sampled (s : State) (counts : List Count) (t : State) : Prop where
  sum : t.sum.toNat = s.sum.toNat + (counts.map BitVec.toNat).sum
  trace : t.trace = s.trace ++ counts.flatMap sampleEvents

theorem State.Sampled.nil (s : State) : s.Sampled [] s :=
  { sum := by simp, trace := by simp }

theorem State.Sampled.cons {r : Count} {counts : List Count} (h : s.Sampled [r] u)
    (h' : u.Sampled counts t) : s.Sampled (r :: counts) t :=
  { sum := by simp [h'.sum, h.sum, Nat.add_assoc], trace := by simp [h'.trace, h.trace] }

/-- One sample (R126) as in `runs_sampleOps`, with its effect on the sum and the trace, where the sum fits. -/
theorem State.DustAt.runs_one_sample {k n : Nat} {r : Count} {counts : List Count} {rest : List PinAnswer}
    (h : s.DustAt 0 k (sampleAnswers (r :: counts) ++ rest) (n + 3)) (hk : k < 16)
    (hfits : s.sum.toNat + r.toNat < 2 ^ 14) :
    ∃ u, Runs sampleOps s u ∧
      u.DustAt (if k + 1 = 16 then 6 else 0) (k + 1) (sampleAnswers counts ++ rest) n ∧
      s.Sampled [r] u := by
  obtain ⟨hst, hph, hcount, hpins, hdly⟩ := h
  have hrun := Runs.of_phase hst hph (exec_dsLedOn_of_ok hpins rfl) <|
    .of_phase (x := 6) (y := 1) hst rfl (exec_dsHoldRise hdly) <|
    .of_phase (x := 6) (y := 2) hst rfl (exec_dsSample rfl) <|
    .of_phase (x := 6) (y := 3) hst rfl (exec_dsHoldPulse rfl) <|
    .of_phase (x := 6) (y := 4) hst rfl (exec_dsLedOff_of_ok rfl rfl) <|
    .of_phase (x := 6) (y := 5) hst rfl (exec_dsHoldSettle rfl) (.nil _)
  refine ⟨_, hrun, { st := hst, ph := ?ph, count := ?count, pins := rfl, delays := rfl },
    { sum := ?sum, trace := ?trace }⟩
  case ph => simp only [hcount]
  case count => simp only [hcount]; exact toNat_narrow (by omega)
  case sum => exact toNat_narrow hfits
  case trace => simp [sampleEvents]

/-- The last samples of a batch, whose sum fits its register: the run of `runs_samples` with its effect. -/
theorem State.DustAt.runs_counts {k n : Nat} {counts : List Count} {rest : List PinAnswer}
    (h : s.DustAt (if k = 16 then 6 else 0) k (sampleAnswers counts ++ rest) (3 * counts.length + n))
    (hk : k + counts.length = 16) (hfits : s.sum.toNat + (counts.map BitVec.toNat).sum < 2 ^ 14) :
    ∃ t, Runs (List.replicate counts.length sampleOps).flatten s t ∧ t.DustAt 6 16 rest n ∧
      s.Sampled counts t := by
  induction counts generalizing s k with
  | nil =>
    obtain rfl : k = 16 := hk
    exact ⟨s, .nil s, by simpa [sampleAnswers] using h, .nil s⟩
  | cons r counts ih =>
    rw [List.length_cons] at hk h
    rw [List.map_cons, List.sum_cons] at hfits
    have hlt : k < 16 := by omega
    have hdly : 3 * (counts.length + 1) + n = 3 * counts.length + n + 3 := by omega
    rw [if_neg hlt.ne, hdly] at h
    obtain ⟨u, hone, hu, hsampled⟩ := h.runs_one_sample hlt (by omega)
    have husum : u.sum.toNat = s.sum.toNat + r.toNat := by simpa using hsampled.sum
    obtain ⟨t, hmore, ht, hsampled'⟩ := ih hu (by omega) (by omega)
    exact ⟨t, hone.append hmore, ht, hsampled.cons hsampled'⟩

/-- Each count is at most `ADC_MAX` (R69). -/
theorem sum_counts_le (counts : List Count) : (counts.map BitVec.toNat).sum ≤ 1023 * counts.length := by
  induction counts with
  | nil => simp
  | cons r counts ih =>
    have hr := r.isLt
    rw [List.map_cons, List.sum_cons, List.length_cons]
    omega

/-- Settles O22: sixteen samples from an empty batch, whose sum is at most 16368. -/
theorem batchOfSixteenSamplesTakes96Calls : Obligations.BatchOfSixteenSamplesTakes96Calls := by
  intro s counts rest n hword hk hsum hlen hpins hdly
  obtain ⟨hst, hph⟩ : s.st = 6 ∧ s.ph = 0 := packSeq_inj hword
  have hzero : s.sum.toNat = 0 := by rw [hsum]; rfl
  have hstart : s.DustAt 0 0 (sampleAnswers counts ++ rest) (3 * counts.length + n) :=
    { st := hst, ph := hph, count := by rw [hk]; rfl, pins := hpins, delays := by omega }
  have hfits : s.sum.toNat + (counts.map BitVec.toNat).sum < 2 ^ 14 := by
    have := sum_counts_le counts
    omega
  obtain ⟨t, hrun, ht, hsampled⟩ := State.DustAt.runs_counts (k := 0) hstart (by omega) hfits
  have hsteps : runSteps 96 s = .next t := by
    rw [hlen] at hrun
    exact hrun.runSteps_eq
  have htotal := hsampled.sum
  rw [hzero, Nat.zero_add] at htotal
  exact ⟨t, hsteps, seqWord_of_phase ht.st ht.ph, BitVec.eq_of_toNat_eq ht.count, htotal, ht.pins,
    ht.delays, newEvents_of_trace hsampled.trace⟩

end Sys2Proof.Machine
end

section
/-! Proofs of O25 to O28: the dust density, as an integer numerator and as the curve of the mean voltage. -/

namespace Sys2Proof.Machine

variable {S : Nat}

/-! ## The numerator in its three ranges (R183) -/

theorem dustNum_low (h : S ≤ 1964) : dustNum S = 0 := if_pos h

theorem dustNum_middle (hlo : 1965 ≤ S) (hhi : S ≤ 11457) : dustNum S = 125 * S - 245520 := by
  rw [dustNum, if_neg (by omega), if_pos hhi]

theorem dustNum_high (h : 11458 ≤ S) : dustNum S = 1424016 := by
  rw [dustNum, if_neg (by omega), if_neg (by omega)]

theorem dustNum_middle_eq_natCast (hlo : 1965 ≤ S) (hhi : S ≤ 11457) :
    dustNum S = (125 * S - 245520 : Nat) := by
  rw [dustNum_middle hlo hhi]
  omega

theorem vnumOf_natCast (n : Nat) : vnumOf n = BitVec.ofNat 39 n := BitVec.ofInt_natCast 39 n

theorem exec_dsConvert (s : State) : exec .dsConvert s = .next { s with
    vkind := 2, vnum := vnumOf (dustNum s.sum.toNat), ph := 7 } := rfl

/-- Settles O25. -/
theorem dsConvertWritesTheDensity : Obligations.DsConvertWritesTheDensity := by
  refine ⟨rfl, fun s => ⟨fun hlow => ?low, fun hlo hhi => ?middle, fun hhigh => ?high⟩⟩
  case low => rw [exec_dsConvert, dustNum_low hlow]; rfl
  case middle => rw [exec_dsConvert, dustNum_middle_eq_natCast hlo hhi, vnumOf_natCast]
  case high => rw [exec_dsConvert, dustNum_high hhigh]; rfl

/-! ## The mean and its breakpoints (R181, R182, R184) -/

theorem dustMean_eq (S : Nat) : dustMean S = (5 * S : ℚ) / 16368 := by
  norm_num [dustMean, vRef, nDust, adcMax]

/-- A comparison of the mean with a fraction is one of whole numbers. -/
theorem dustMean_le_div_iff {p q : Nat} (hq : 0 < q) : dustMean S ≤ p / q ↔ 5 * S * q ≤ p * 16368 := by
  rw [dustMean_eq, div_le_div_iff₀ (by norm_num) (mod_cast hq)]
  norm_cast

theorem dustMean_eq_div_iff {p q : Nat} (hq : 0 < q) : dustMean S = p / q ↔ 5 * S * q = p * 16368 := by
  rw [dustMean_eq, div_eq_div_iff (by norm_num) (mod_cast hq.ne')]
  norm_cast

/-- The first breakpoint is the mean of the sum 1964.16. -/
theorem dustMean_le_dustLo_iff : dustMean S ≤ 3 / 5 ↔ S ≤ 1964 := by
  have hscale : dustMean S ≤ 3 / 5 ↔ 5 * S * 5 ≤ 3 * 16368 := mod_cast dustMean_le_div_iff (by decide)
  rw [hscale]
  omega

/-- The second breakpoint is the mean of the sum 11457.6. -/
theorem dustMean_le_dustHi_iff : dustMean S ≤ 7 / 2 ↔ S ≤ 11457 := by
  have hscale : dustMean S ≤ 7 / 2 ↔ 5 * S * 2 ≤ 7 * 16368 := mod_cast dustMean_le_div_iff (by decide)
  rw [hscale]
  omega

theorem dustMean_ne_dustLo : dustMean S ≠ 3 / 5 := by
  have hscale : dustMean S = 3 / 5 ↔ 5 * S * 5 = 3 * 16368 := mod_cast dustMean_eq_div_iff (by decide)
  rw [ne_eq, hscale]
  omega

theorem dustMean_ne_dustHi : dustMean S ≠ 7 / 2 := by
  have hscale : dustMean S = 7 / 2 ↔ 5 * S * 2 = 7 * 16368 := mod_cast dustMean_eq_div_iff (by decide)
  rw [ne_eq, hscale]
  omega

/-! ## The density of a sum (R183) -/

theorem dustOfSum_eq (S : Nat) : dustOfSum S = if dustMean S ≤ 3 / 5 then 0
    else if dustMean S ≤ 7 / 2 then (dustMean S - 3 / 5) / (29 / 5) else 3 / 5 := rfl

/-- The integer form is the curve over the denominator of R115: both branch at the same sums. -/
theorem dustOfSum_eq_dustNum_div (S : Nat) : dustOfSum S = (dustNum S : ℚ) / 2373360 := by
  simp only [dustOfSum_eq, dustMean_le_dustLo_iff, dustMean_le_dustHi_iff]
  rw [dustMean_eq, dustNum]
  split_ifs
  · norm_num
  · push_cast
    ring
  · norm_num

theorem valueQ_dust (S : Nat) : valueQ 2 (vnumOf (dustNum S)) = some (dustOfSum S) := by
  have hb := dustNum_bounds S
  have hv : (vnumOf (dustNum S)).toInt = dustNum S := toInt_vnumOf (by omega) (by omega)
  simp [valueQ, vden, hv, dustOfSum_eq_dustNum_div]

/-- Settles O26. -/
theorem dustNumeratorIsTheCurveAtTheMean : Obligations.DustNumeratorIsTheCurveAtTheMean := by
  refine fun S _ => ⟨rfl, valueQ_dust S, dustOfSum_eq_dustNum_div S, ?branches⟩
  case branches => rw [dustOfSum_eq, dustMean_eq]

/-! ## The mean of sixteen voltages (R171, R182) -/

/-- The voltage is linear in the count. -/
theorem sum_volts (counts : List Count) : (counts.map fun r => (5 * r.toNat : ℚ) / 1023).sum =
    (5 * ((counts.map BitVec.toNat).sum : Nat) : ℚ) / 1023 := by
  induction counts with
  | nil => simp
  | cons r counts ih =>
    rw [List.map_cons, List.sum_cons, ih, List.map_cons, List.sum_cons]
    push_cast
    ring

theorem dustMean_nonneg (S : Nat) : 0 ≤ dustMean S := by
  rw [dustMean_eq]
  positivity

theorem dustMean_le_vRef (h : S ≤ 16368) : dustMean S ≤ 5 := by
  have hcast : (S : ℚ) ≤ 16368 := mod_cast h
  rw [dustMean_eq, div_le_iff₀ (by norm_num)]
  linarith

/-- Settles O27. -/
theorem batchMeanIsTheVoltageOfTheSum : Obligations.BatchMeanIsTheVoltageOfTheSum := by
  intro counts hlen S
  have hS : S ≤ 16368 := by
    have := sum_counts_le counts
    omega
  refine ⟨?mean, dustMean_eq S, dustMean_nonneg S, dustMean_le_vRef hS⟩
  case mean =>
    rw [sum_volts, dustMean_eq, div_div]
    norm_num [S]

/-! ## The gaps of the density (R185) -/

/-- The density is 0, or on the slope between the densities of the sums 1965 and 11457, or saturated. -/
theorem dustOfSum_cases (S : Nat) : dustOfSum S = 0 ∨
    (105 / 2373360 ≤ dustOfSum S ∧ dustOfSum S ≤ 79107 / 158224) ∨ dustOfSum S = 3 / 5 := by
  rw [dustOfSum_eq_dustNum_div]
  obtain hlow | hlo : S ≤ 1964 ∨ 1965 ≤ S := by omega
  · exact .inl (by simp [dustNum_low hlow])
  obtain hhi | hhigh : S ≤ 11457 ∨ 11458 ≤ S := by omega
  · have hbounds : 105 ≤ dustNum S ∧ dustNum S ≤ 1186605 := by
      rw [dustNum_middle hlo hhi]
      omega
    have hfirst : (105 : ℚ) ≤ dustNum S := mod_cast hbounds.1
    have hlast : (dustNum S : ℚ) ≤ 1186605 := mod_cast hbounds.2
    exact .inr (.inl ⟨by linarith, by linarith⟩)
  · exact .inr (.inr (by norm_num [dustNum_high hhigh]))

/-- Settles O28: neither breakpoint is the mean of a whole sum, and the three ranges are apart. -/
theorem dustMeansMissTheBreakpoints : Obligations.DustMeansMissTheBreakpoints := by
  refine fun S _ => ⟨dustMean_ne_dustLo, dustMean_ne_dustHi, ?_⟩
  obtain hzero | ⟨hfirst, hlast⟩ | hsat := dustOfSum_cases S
  · exact ⟨hzero.ge, .inr (by norm_num [hzero]), .inl hzero⟩
  · exact ⟨by linarith, .inr hlast, .inr hfirst⟩
  · exact ⟨by norm_num [hsat], .inl hsat, .inr (by norm_num [hsat])⟩

end Sys2Proof.Machine
end

section
/-! Proofs of O30 and O31: the humidity of a count, as an integer numerator and as the quadratic of the voltage. -/

namespace Sys2Proof.Machine

variable {s : State} {r : Nat}

/-! ## The numerator (R203) -/

theorem humNum_eq (r : Nat) : humNum r = 31325 * (r : Int) ^ 2 + 132637065 * (r : Int) - 7892921718 := by
  rw [humNum]
  ring

/-- The rise from one count to the next is at least 132668390. -/
theorem humNum_succ (r : Nat) : humNum (r + 1) = humNum r + (62650 * r + 132668390) := by
  rw [humNum, humNum]
  push_cast
  ring

theorem humNum_strictMono : StrictMono humNum :=
  strictMono_nat_of_lt_succ fun r => by
    rw [humNum_succ]
    omega

/-- A threshold between the numerators of neighbouring counts splits all counts there. -/
theorem humNum_lt_iff {c : Int} {n : Nat} (hlast : humNum n < c) (hfirst : c ≤ humNum (n + 1)) :
    humNum r < c ↔ r ≤ n := by
  constructor
  · intro h
    exact Nat.lt_succ_iff.mp (humNum_strictMono.lt_iff_lt.mp (h.trans_le hfirst))
  · intro h
    exact (humNum_strictMono.monotone h).trans_lt hlast

theorem humNum_neg_iff : humNum r < 0 ↔ r ≤ 58 := humNum_lt_iff (by decide) (by decide)

theorem hundred_lt_humNum_iff : 100 * 1046529000 < humNum r ↔ 725 ≤ r := by
  have hsplit : humNum r < 100 * 1046529000 + 1 ↔ r ≤ 724 := humNum_lt_iff (by decide) (by decide)
  omega

/-- The numerator of a count fits its 39 bits (R115). -/
theorem toInt_vnumOf_humNum (hr : r ≤ 1023) : (vnumOf (humNum r)).toInt = humNum r := by
  have hbounds := humNum_bounds hr
  exact toInt_vnumOf (by omega) (by omega)

/-! ## The humidity of a count (R201, R203, R204) -/

theorem humOfCount_eq (r : Nat) : humOfCount r =
    1253 / 1000 * (5 * r / 1023 : ℚ) ^ 2 + 25931 / 1000 * (5 * r / 1023 : ℚ) - 7542 / 1000 := by
  rw [humOfCount, humCurve, volt, humA2, humA1, humA0, vRef, adcMax]
  push_cast
  ring

/-- The integer form is the quadratic over the denominator of R115, which is `1000 * 1023 ^ 2`. -/
theorem humOfCount_eq_humNum_div (r : Nat) : humOfCount r = (humNum r : ℚ) / 1046529000 := by
  rw [humOfCount_eq, humNum_eq]
  push_cast
  ring

theorem valueQ_hum (hr : r ≤ 1023) : valueQ 3 (vnumOf (humNum r)) = some (humOfCount r) := by
  simp [valueQ, vden, toInt_vnumOf_humNum hr, humOfCount_eq_humNum_div]

theorem humOfCount_neg_iff : humOfCount r < 0 ↔ r ≤ 58 := by
  rw [humOfCount_eq_humNum_div, div_lt_iff₀ (by norm_num), zero_mul, Int.cast_lt_zero, humNum_neg_iff]

theorem hundred_lt_humOfCount_iff : 100 < humOfCount r ↔ 725 ≤ r := by
  rw [humOfCount_eq_humNum_div, lt_div_iff₀ (by norm_num), ← hundred_lt_humNum_iff]
  norm_cast

/-- Settles O31. -/
theorem humidityNumeratorIsTheQuadratic : Obligations.HumidityNumeratorIsTheQuadratic := by
  refine ⟨fun r hr => ?count, fun q r hlt _ => humNum_strictMono hlt, rfl, rfl⟩
  case count =>
    exact ⟨humNum_eq r, valueQ_hum hr, toInt_vnumOf_humNum hr, humOfCount_eq r, humOfCount_neg_iff,
      hundred_lt_humOfCount_iff⟩

/-! ## HM_SAMPLE (R202, R205) -/

theorem exec_hmSample {a : PinAnswer} {rest : List PinAnswer} (hpin : s.pinIn = a :: rest) :
    exec .hmSample s = .next { s with
      pinIn := rest, trace := s.trace ++ [.call (.analogRead .hum) (.count a.adc)],
      vkind := 3, vnum := vnumOf (humNum a.adc.toNat), ph := 1 } :=
  await_of_eq_some (callAnalogRead_cons .hum hpin) _

/-- Settles O30: the numerator the step writes is the quadratic. -/
theorem hmSampleEvaluatesTheQuadratic : Obligations.HmSampleEvaluatesTheQuadratic := by
  refine ⟨rfl, fun s a rest hpin => ?_⟩
  rw [exec_hmSample hpin, humNum_eq, vnumOf]

end Sys2Proof.Machine
end

section
/-! Proofs of O7, O8, O9, O11, O13, O16 and O33: startup, the first two steps of a probe, the probe advance, the
idle delay and `FAULT`. -/

namespace Sys2Proof.Machine

variable {s t : State}

/-! ## INIT_RESET (R211) -/

theorem exec_initReset_of_ok {a : BusAnswer} {rest : List BusAnswer} (hbus : s.busIn = a :: rest)
    (hres : resetResult a = .ok) :
    exec .initReset s = .next { s with
      busIn := rest, trace := s.trace ++ [.call .resetBus (.reset .ok)], st := 1 } := by
  have hcall := callResetBus_cons hbus
  rw [hres] at hcall
  exact await_of_eq_some hcall _

theorem exec_initReset_of_noDevices {a : BusAnswer} {rest : List BusAnswer} (hbus : s.busIn = a :: rest)
    (hres : resetResult a = .noDevices) :
    exec .initReset s = .next { s with
      busIn := rest, trace := s.trace ++ [.call .resetBus (.reset .noDevices), .diag 0 1],
      fault := true, faultCode := 1, faultSid := 0, st := 9, ph := 0 } := by
  have hcall := callResetBus_cons hbus
  rw [hres] at hcall
  exact (await_of_eq_some hcall _).trans
    (congrArg Host.Outcome.next (raiseFatal_after_bus_call (e := .noDevicesFound) rfl s rest
      (.call .resetBus (.reset .noDevices))))

/-- Settles O7: one lemma for each result of `reset_bus`. -/
theorem initResetEntersEnumerationOrFault : Obligations.InitResetEntersEnumerationOrFault :=
  ⟨rfl, fun _ _ _ hbus =>
    ⟨fun h => exec_initReset_of_ok hbus (resetResult_ok h),
      fun h => exec_initReset_of_noDevices hbus (resetResult_noDevices h),
      fun h => exec_initReset_of_dataError hbus (resetResult_dataError h)⟩⟩

/-! ## INIT_ENUM (R212) -/

theorem exec_initEnum_of_addr {a : BusAnswer} {rest : List BusAnswer} {adr : Address}
    (hbus : s.busIn = a :: rest) (hres : enumResult a = .addr adr) (hslot : s.eidx.toNat < s.addr.length) :
    exec .initEnum s = .next { s with
      busIn := rest
      trace := s.trace ++ [.call (.enumerateNext (s.eidx != 0)) (.enum (.addr adr))]
      addr := s.addr.set s.eidx.toNat adr
      eidx := narrow 8 (s.eidx.toNat + 1)
      st := if s.eidx.toNat + 1 = s.cfg.nProbes then 2 else s.st } := by
  have hcall := callEnumerateNext_cons (s.eidx != 0) hbus
  rw [hres] at hcall
  rw [exec, execInitEnum, await_of_eq_some hcall]
  by_cases hlast : s.eidx.toNat + 1 = s.cfg.nProbes
  · simp [State.writeAddr, hslot, hlast, State.setSt, stIdle]
  · simp [State.writeAddr, hslot, hlast]

/-- Settles O8: an address is stored below `N_PROBES`, where the count stays in its register. -/
theorem initEnumStoresAnAddressOrFaults : Obligations.InitEnumStoresAnAddressOrFaults := by
  refine ⟨rfl, fun s a rest hbus hlen hrange => ⟨fun h => ?addr,
    fun h => exec_initEnum_of_noDevice_first hbus (enumResult_noDevice h),
    fun h => exec_initEnum_of_noDevice_later hbus (enumResult_noDevice h)⟩⟩
  case addr =>
    have hn := nProbes_bounds s.cfg
    have hnext : narrow 8 (s.eidx.toNat + 1) = s.eidx + 1 := narrow_toNat_add_one (by omega)
    rw [exec_initEnum_of_addr hbus (enumResult_addr h) (by omega), hnext]

/-! ## The startup states (R213, R282) -/

/-- The rows of the transition table (R225) that lead to a startup state are those of the calls of startup, and
the wait for one of them. -/
theorem Transition.into_startup (h : Transition s t) (hst : t.st = 0 ∨ t.st = 1 ∨ t.st = 2) :
    (t = s ∧ callOf s ≠ none) ∨ (s.seqWord = 0x00 ∧ t.st = 1) ∨
      (s.seqWord = 0x10 ∧ (t.st = 1 ∨ t.st = 2)) := by
  cases h with
  | waits hcall => exact .inl ⟨rfl, by simp [hcall]⟩
  | initResetOk hst' hph => exact .inr (.inl ⟨seqWord_of_phase hst' hph, rfl⟩)
  | initEnumMore hst' hph => exact .inr (.inr ⟨seqWord_of_phase hst' hph, .inl hst'⟩)
  | initEnumLast hst' hph => exact .inr (.inr ⟨seqWord_of_phase hst' hph, .inr rfl⟩)
  | rtCheckRecover | rtPersistOk | rtPersistRecover =>
    obtain hst | hst | hst := hst <;> exact absurd hst State.advance_st_ne
  | rtCmd hst' | rtByteMore _ hst' | rtByteLast _ hst' | rtCheckMatch hst' | dsLedOnOk hst' | dsHoldRise hst'
  | dsSample hst' | dsHoldPulse hst' | dsLedOffOk hst' | dsHoldSettleMore hst' | dsHoldSettleLast hst'
  | dsConvert hst' | hmSample hst' | fault hst' => simp [hst'] at hst
  | _ => simp [stFault] at hst

/-- Settles O9: a startup state is entered from the one before it or waited in, and `IDLE` has no call to wait
for. -/
theorem idleIsPassedOncePerReset : Obligations.IdleIsPassedOncePerReset := by
  refine ⟨rfl, fun _ => rfl, fun s t hstep => ?_⟩
  have h := transition_of_step hstep
  refine ⟨fun hword => ?idle, fun hword => ?initEnum, fun hword => ?initReset⟩
  case idle =>
    obtain ⟨hst, hph⟩ : t.st = 2 ∧ t.ph = 0 := packSeq_inj hword
    obtain ⟨rfl, hcall⟩ | ⟨_, hst'⟩ | ⟨hfrom, _⟩ := h.into_startup (.inr (.inr hst))
    · exact absurd (callOf_of_phase .idle hst hph) hcall
    · cases hst'.symm.trans hst
    · exact hfrom
  case initEnum =>
    obtain ⟨rfl, _⟩ | ⟨hfrom, _⟩ | ⟨hfrom, _⟩ :=
      h.into_startup (.inr (.inl (st_of_seqWord (y := 0) hword)))
    · exact .inr hword
    · exact .inl hfrom
    · exact .inr hfrom
  case initReset =>
    have hst : t.st = 0 := st_of_seqWord (y := 0) hword
    obtain ⟨rfl, _⟩ | ⟨_, hst'⟩ | ⟨_, hst' | hst'⟩ := h.into_startup (.inl hst)
    · exact hword
    · cases hst'.symm.trans hst
    · cases hst'.symm.trans hst
    · cases hst'.symm.trans hst

/-! ## The first two steps of a probe, and the idle delay (R214, R215, R223) -/

theorem exec_startConversion {a : BusAnswer} {rest : List BusAnswer} {adr : Address}
    (hadr : s.addr[s.pidx.toNat]? = some adr) (hbus : s.busIn = a :: rest) :
    exec .startConversion s = .next { s with
      busIn := rest, trace := s.trace ++ [.call (.transaction s.cfg.cmdConvert adr) .done], st := 4 } := by
  have hread : s.readAddr s.pidx = some adr := hadr
  simp only [exec, execStartConversion, hread]
  exact await_of_eq_some (callTransaction_cons _ adr hbus) _

/-- Settles O11. -/
theorem startConversionAddressesTheCurrentProbe : Obligations.StartConversionAddressesTheCurrentProbe :=
  ⟨rfl, fun _ _ _ _ => exec_startConversion⟩

/-- Settles O13. -/
theorem conversionWaitAndSleepAreFixedDelays : Obligations.ConversionWaitAndSleepAreFixedDelays :=
  ⟨rfl, rfl, fun _ _ hdly =>
    ⟨await_of_eq_some (callDelay_succ tConv hdly) _, await_of_eq_some (callDelay_succ tSleep hdly) _⟩⟩

/-! ## The probe advance (R218) -/

theorem State.advance_of_more (h : s.pidx.toNat + 1 < s.cfg.nProbes) :
    s.advance = { s with pidx := s.pidx + 1, st := 3, ph := 0 } := by
  have hn := nProbes_bounds s.cfg
  have hnext : BitVec.ofNat 8 (s.pidx.toNat + 1) = s.pidx + 1 := by bv_omega
  obtain ⟨_, heq⟩ | ⟨hlast, _⟩ := advance_cases s
  · rw [heq, hnext]
  · omega

theorem State.advance_of_last (h : s.pidx.toNat + 1 = s.cfg.nProbes) :
    s.advance = { s with pidx := 0, st := 6, ph := 0, k := 0, sum := 0 } := by
  obtain ⟨hmore, _⟩ | ⟨_, heq⟩ := advance_cases s
  · omega
  · exact heq

/-- Settles O16. -/
theorem probeAdvanceTakesTheNextProbeOrTheDustLeg :
    Obligations.ProbeAdvanceTakesTheNextProbeOrTheDustLeg :=
  fun _ => ⟨State.advance_of_more, State.advance_of_last⟩

/-! ## FAULT (R224, R264) -/

theorem step_of_fault (h : s.seqWord = 0x90) : step s = .next s := by
  obtain ⟨hst, hph⟩ : s.st = 9 ∧ s.ph = 0 := packSeq_inj h
  have hself : { s with st := 9 } = s := by rw [← hst]
  calc step s = exec .fault s := step_of_decode (decode_of_phase (by rw [hst, hph]; decide))
    _ = .next { s with st := 9 } := rfl
    _ = .next s := by rw [hself]

theorem runSteps_of_fault (n : Nat) (h : s.seqWord = 0x90) : runSteps n s = .next s := by
  induction n with
  | zero => rfl
  | succ n ih => simp only [runSteps, step_of_fault h, ih]

/-- Settles O33. -/
theorem faultIsTerminal : Obligations.FaultIsTerminal :=
  ⟨rfl, fun _ => rfl, fun n _ => runSteps_of_fault n⟩

end Sys2Proof.Machine
end

section
/-! Proofs of O17, O29 and O32: the three micro-operations that send a record. -/

namespace Sys2Proof.Machine

variable {s : State} {a : PersAnswer} {rest : List PersAnswer}

/-! ## An insert that returned (R70, R263) -/

/-- The state a micro-operation leaves from `s`, just after the insert of sensor `sid` returned `r`: it goes on to
`onward`, unless the raise of `PersistenceError` keeps it from that. -/
def State.afterInsert (s : State) (sid : Sid) (onward : State → State) : Status → State
  | .ok => onward s
  | .error => s.raise .persistenceError sid onward

/-- `s` with its next insert answered and recorded. -/
def State.inserted (s : State) (sid : Sid) (rest : List PersAnswer) (r : Status) : State :=
  { s with persIn := rest, trace := s.trace ++ [.call (.insertReading sid s.vkind s.vnum) (.status r)] }

theorem exec_rtPersist (hpers : s.persIn = a :: rest) :
    exec .rtPersist s = .next ((s.inserted (sidTemp s.pidx) rest (insertResult a)).afterInsert
      (sidTemp s.pidx) State.advance (insertResult a)) := by
  rw [exec, execRtPersist, await_of_eq_some (callInsertReading_cons _ _ _ hpers)]
  cases insertResult a <;> rfl

theorem exec_dsPersist (hpers : s.persIn = a :: rest) :
    exec .dsPersist s = .next ((s.inserted (sidDust s.cfg) rest (insertResult a)).afterInsert
      (sidDust s.cfg) (fun u => u.goto 7 0) (insertResult a)) := by
  rw [exec, execDsPersist, await_of_eq_some (callInsertReading_cons _ _ _ hpers)]
  cases insertResult a <;> rfl

theorem exec_hmPersist (hpers : s.persIn = a :: rest) :
    exec .hmPersist s = .next ((s.inserted (sidHum s.cfg) rest (insertResult a)).afterInsert
      (sidHum s.cfg) (fun u => u.goto 8 0) (insertResult a)) := by
  rw [exec, execHmPersist, await_of_eq_some (callInsertReading_cons _ _ _ hpers)]
  cases insertResult a <;> rfl

/-- The three ends of such a micro-operation, by answer and policy. -/
theorem insert_ends {out : Out} {sid : Sid} {onward : State → State}
    (hexec : out = .next ((s.inserted sid rest (insertResult a)).afterInsert sid onward (insertResult a))) :
    (a.err = false → out = .next (onward { s with
      persIn := rest
      trace := s.trace ++ [.call (.insertReading sid s.vkind s.vnum) (.status .ok)] })) ∧
    (a.err = true → s.pol = .halt → out = .next { s with
      persIn := rest
      trace := s.trace ++ [.call (.insertReading sid s.vkind s.vnum) (.status .error), .diag sid 8]
      fault := true, faultCode := 8, faultSid := sid, st := 9, ph := 0 }) ∧
    (a.err = true → s.pol = .recover → out = .next (onward { s with
      persIn := rest
      trace := s.trace ++ [.call (.insertReading sid s.vkind s.vnum) (.status .error), .diag sid 8] })) := by
  have hraise := raise_policy (s := s.inserted sid rest .error) (e := .persistenceError) nofun rfl sid onward
  simp only [State.inserted, List.append_assoc, List.singleton_append] at hraise
  rw [hexec]
  refine ⟨fun hok => ?ok, fun herr hpol => ?halt, fun herr hpol => ?recover⟩
  case ok => simp only [insertResult, hok]; rfl
  case halt =>
    have hres : insertResult a = .error := if_pos herr
    obtain ⟨_, heq⟩ | ⟨hpol', _⟩ := hraise
    · rw [hres]; exact congrArg _ heq
    · cases hpol.symm.trans hpol'
  case recover =>
    have hres : insertResult a = .error := if_pos herr
    obtain ⟨hpol', _⟩ | ⟨_, heq⟩ := hraise
    · cases hpol.symm.trans hpol'
    · rw [hres]; exact congrArg _ heq

/-- Settles O17: in range, the id of a probe is one above its index. -/
theorem rtPersistSendsTheReadingOnce : Obligations.RtPersistSendsTheReadingOnce := by
  refine ⟨rfl, fun s a rest hpers hp => ?_⟩
  have hexec := exec_rtPersist hpers
  rw [sidTemp_of_lt hp] at hexec
  exact insert_ends hexec

/-- Settles O29. -/
theorem dsPersistSendsTheDensityOnce : Obligations.DsPersistSendsTheDensityOnce :=
  ⟨rfl, fun _ _ _ hpers => insert_ends (exec_dsPersist hpers)⟩

/-- Settles O32. -/
theorem hmPersistSendsTheHumidityOnce : Obligations.HmPersistSendsTheHumidityOnce :=
  ⟨rfl, fun _ _ _ hpers => insert_ends (exec_hmPersist hpers)⟩

end Sys2Proof.Machine
end

section
/-! Proofs of O46 and O51: every state of the invariant has a next state, and an answered startup comes to an
end. -/

namespace Sys2Proof.Machine

variable {s : State} {i : Instr}

/-! ## A step in every state of the invariant (R230) -/

/-- A wait has a next state when what follows the call's return has one. -/
theorem exists_next_await {α : Type} {call : Option (α × State)} {k : α → State → Out}
    (h : ∀ r u, call = some (r, u) → ∃ t, k r u = .next t) : ∃ t, s.await call k = .next t := by
  cases call with
  | none => exact ⟨s, rfl⟩
  | some p => exact h p.1 p.2 rfl

/-- A micro-operation with a bus call has a next state when it has one once the call is answered. -/
theorem exists_next_of_bus {req : Request} (hcall : callOfInstr i s = some req)
    (hport : answered req s = !s.busIn.isEmpty)
    (h : ∀ a rest, s.busIn = a :: rest → ∃ t, exec i s = .next t) : ∃ t, exec i s = .next t := by
  cases hbus : s.busIn with
  | nil => exact ⟨s, unansweredCallsBlock i s req hcall (by rw [hport, hbus]; rfl)⟩
  | cons a rest => exact h a rest hbus

theorem exists_next_initEnum (hslot : s.eidx.toNat < s.addr.length) : ∃ t, exec .initEnum s = .next t := by
  refine exists_next_of_bus rfl rfl fun a rest hbus => ?_
  cases hres : enumResult a with
  | addr adr => exact ⟨_, exec_initEnum_of_addr hbus hres hslot⟩
  | noDevice => exact ⟨_, exec_initEnum_of_noDevice hbus hres⟩

theorem exists_next_startConversion (hslot : s.pidx.toNat < s.addr.length) :
    ∃ t, exec .startConversion s = .next t := by
  have hadr : s.addr[s.pidx.toNat]? = some s.addr[s.pidx.toNat] := List.getElem?_eq_getElem hslot
  exact exists_next_of_bus (congrArg (Option.map _) hadr) rfl fun _ _ hbus =>
    ⟨_, exec_startConversion hadr hbus⟩

theorem exists_next_rtCmd (hslot : s.pidx.toNat < s.addr.length) : ∃ t, exec .rtCmd s = .next t := by
  have hadr : s.addr[s.pidx.toNat]? = some s.addr[s.pidx.toNat] := List.getElem?_eq_getElem hslot
  exact exists_next_of_bus (congrArg (Option.map _) hadr) rfl fun _ _ hbus => ⟨_, exec_rtCmd hadr hbus⟩

theorem exists_next_rtByte (hb : s.bcnt.toNat < 9) : ∃ t, exec .rtByte s = .next t :=
  exists_next_of_bus rfl rfl fun _ _ hbus => ⟨_, exec_rtByte hb hbus⟩

theorem exists_next_rtCheck (s : State) : ∃ t, exec .rtCheck s = .next t := by
  cases hm : crcMatch s with
  | true => exact ⟨_, exec_rtCheck_of_match hm⟩
  | false => exact ⟨_, if_neg (by simp [hm])⟩

/-- The only micro-operations that can stop are those that index `ADDR` or `SP`, and the invariant holds their
indices in range. -/
theorem State.Inv.exists_step (hs : s.Inv) : ∃ t, step s = .next t := by
  obtain ⟨i, hd⟩ := hs.wordDefined
  have hrow := phase_of_decode hd
  have hpidx : s.pidx.toNat < s.addr.length := hs.pidxRange.trans_eq hs.addrLength.symm
  rw [step_of_decode hd]
  cases i with
  | initEnum =>
    obtain ⟨hst, _⟩ : s.st = 1 ∧ s.ph = 0 := by simpa [phaseTable] using hrow
    exact exists_next_initEnum ((hs.eidxDuringEnum hst).trans_eq hs.addrLength.symm)
  | startConversion => exact exists_next_startConversion hpidx
  | rtCmd => exact exists_next_rtCmd hpidx
  | rtByte =>
    obtain ⟨hst, hph⟩ : s.st = 5 ∧ s.ph = 1 := by simpa [phaseTable] using hrow
    exact exists_next_rtByte (hs.bcntBeforeByte (seqWord_of_phase hst hph))
  | rtCheck => exact exists_next_rtCheck s
  | idle | dsConvert | fault => exact ⟨_, rfl⟩
  | initReset | rtPersist | dsLedOn | dsLedOff | dsPersist | hmPersist =>
    exact exists_next_await fun r _ _ => by cases r <;> exact ⟨_, rfl⟩
  | awaitConversion | dsHoldRise | dsSample | dsHoldPulse | dsHoldSettle | hmSample | sleep =>
    exact exists_next_await fun _ _ _ => ⟨_, rfl⟩
  | _ => simp [phaseTable] at hrow

/-- Settles O46. -/
theorem theMachineAlwaysHasAStep : Obligations.TheMachineAlwaysHasAStep :=
  fun _ hs => hs.exists_step

/-! ## Startup (R211, R212, R230, R282) -/

/-- Startup has ended: the block is in `IDLE` or in `FAULT`. -/
def State.StartupOver (s : State) : Prop := s.seqWord = 0x20 ∨ s.seqWord = 0x90

theorem startupOver_of_idle (hst : s.st = 2) (hph : s.ph = 0) : s.StartupOver :=
  .inl (seqWord_of_phase hst hph)

theorem startupOver_of_fault (hst : s.st = 9) (hph : s.ph = 0) : s.StartupOver :=
  .inr (seqWord_of_phase hst hph)

theorem runSteps_of_step {u : State} {n : Nat} (h : step s = .next u) :
    runSteps (n + 1) s = runSteps n u := by
  simp only [runSteps, h]

/-- A fatal failure is the entry to `FAULT` (R257, R258). -/
theorem raiseFatal_startupOver {e : ErrorKind} (h : isFatal e = true) (s : State) :
    (s.raiseFatal e).StartupOver := by
  rw [raiseFatal_eq h]
  exact startupOver_of_fault rfl rfl

/-- One answered `INIT_ENUM`: it ends startup, or has one address less to wait for. -/
theorem initEnum_next {a : BusAnswer} {rest : List BusAnswer} (hst : s.st = 1) (hph : s.ph = 0) (hs : s.Inv)
    (hbus : s.busIn = a :: rest) :
    ∃ u, step s = .next u ∧ (u.StartupOver ∨
      (u.st = 1 ∧ u.ph = 0 ∧ u.eidx.toNat = s.eidx.toNat + 1 ∧ u.cfg = s.cfg ∧ u.busIn = rest)) := by
  have hrange := hs.eidxDuringEnum hst
  rw [step_of_decode (i := .initEnum) (decode_of_phase (by rw [hst, hph]; decide))]
  cases hres : enumResult a with
  | addr adr =>
    have hn := nProbes_bounds s.cfg
    refine ⟨_, exec_initEnum_of_addr hbus hres (hrange.trans_eq hs.addrLength.symm), ?_⟩
    by_cases hlast : s.eidx.toNat + 1 = s.cfg.nProbes
    · exact .inl (startupOver_of_idle (if_pos hlast) hph)
    · exact .inr ⟨(if_neg hlast).trans hst, hph, toNat_narrow (by omega), rfl, rfl⟩
  | noDevice =>
    exact ⟨_, exec_initEnum_of_noDevice hbus hres, .inl (raiseFatal_startupOver (by split <;> rfl) _)⟩

/-- With an answer for each of the `m` addresses still missing, enumeration stores them all or fails on the way. -/
theorem enumeration_ends {m : Nat} (hst : s.st = 1) (hph : s.ph = 0) (hs : s.Inv)
    (hleft : s.eidx.toNat + m = s.cfg.nProbes) (hlen : m ≤ s.busIn.length) :
    ∃ n t, n ≤ m ∧ runSteps n s = .next t ∧ t.StartupOver := by
  induction m generalizing s with
  | zero => exact absurd (hs.eidxDuringEnum hst) (by omega)
  | succ m ih =>
    obtain ⟨a, rest, hbus⟩ := List.exists_cons_of_length_pos (Nat.zero_lt_of_lt hlen)
    obtain ⟨u, hstep, hover | ⟨hst', hph', heidx, hcfg, hrest⟩⟩ := initEnum_next hst hph hs hbus
    · exact ⟨1, u, Nat.le_add_left .., runSteps_of_step hstep, hover⟩
    · rw [hbus, List.length_cons] at hlen
      have hlen' : m ≤ u.busIn.length := hrest ▸ Nat.le_of_succ_le_succ hlen
      obtain ⟨n, t, hn, hrun, hover⟩ :=
        ih hst' hph' (stepKeepsTheInvariant s u hs hstep) (by rw [heidx, hcfg]; omega) hlen'
      exact ⟨n + 1, t, Nat.succ_le_succ hn, (runSteps_of_step hstep).trans hrun, hover⟩

/-- One answered `INIT_RESET`: it ends startup, or enumeration begins. -/
theorem initReset_next {a : BusAnswer} {rest : List BusAnswer} (hst : s.st = 0) (hph : s.ph = 0)
    (hbus : s.busIn = a :: rest) :
    ∃ u, step s = .next u ∧ (u.StartupOver ∨
      (u.st = 1 ∧ u.ph = 0 ∧ u.eidx = s.eidx ∧ u.cfg = s.cfg ∧ u.busIn = rest)) := by
  rw [step_of_decode (i := .initReset) (decode_of_phase (by rw [hst, hph]; decide))]
  cases hres : resetResult a with
  | ok => exact ⟨_, exec_initReset_of_ok hbus hres, .inr ⟨rfl, hph, rfl, rfl, rfl⟩⟩
  | noDevices => exact ⟨_, exec_initReset_of_noDevices hbus hres, .inl (startupOver_of_fault rfl rfl)⟩
  | dataError => exact ⟨_, exec_initReset_of_dataError hbus hres, .inl (startupOver_of_fault rfl rfl)⟩

/-- Settles O51: one step for `reset_bus`, then enumeration from an empty address table. -/
theorem answeredStartupEnds : Obligations.AnsweredStartupEnds := by
  intro s hs hword hlen
  obtain ⟨hst, hph⟩ : s.st = 0 ∧ s.ph = 0 := packSeq_inj hword
  obtain ⟨a, rest, hbus⟩ := List.exists_cons_of_length_pos (Nat.zero_lt_of_lt hlen)
  obtain ⟨u, hstep, hover | ⟨hst', hph', heidx, hcfg, hrest⟩⟩ := initReset_next hst hph hbus
  · exact ⟨1, u, Nat.le_add_left .., runSteps_of_step hstep, hover⟩
  · rw [hbus, List.length_cons] at hlen
    have hzero : u.eidx.toNat = 0 := by rw [heidx, hs.eidxBeforeEnum hst]; rfl
    obtain ⟨n, t, hn, hrun, hover⟩ := enumeration_ends (m := s.cfg.nProbes) hst' hph'
      (stepKeepsTheInvariant s u hs hstep) (by rw [hzero, hcfg, Nat.zero_add])
      (hrest ▸ Nat.le_of_succ_le_succ hlen)
    exact ⟨n + 1, t, Nat.succ_le_succ hn, (runSteps_of_step hstep).trans hrun, hover⟩

end Sys2Proof.Machine
end

section
/-! Proof of O50: the longest a cycle can go on is a list of micro-operations, of which each answered step leaves
at most the tail, and whose calls are all the calls the cycle makes. -/

namespace Sys2Proof.Machine

variable {s t u : State} {i : Instr}

/-! ## Ports: where calls go and answers wait -/

/-- The four ports that answer calls (R73). -/
inductive Port where
  | bus
  | pin
  | pers
  | dly
  deriving DecidableEq

/-- The port of a call (R63 to R71). -/
def requestPort : Request → Port
  | .resetBus | .enumerateNext _ | .transaction _ _ | .readByte => .bus
  | .digitalWrite _ | .analogRead _ => .pin
  | .insertReading _ _ _ => .pers
  | .delay _ => .dly

/-- The answers waiting on a port. -/
def State.waiting (s : State) : Port → Nat
  | .bus => s.busIn.length
  | .pin => s.pinIn.length
  | .pers => s.persIn.length
  | .dly => s.dlyIn

theorem answered_iff {req : Request} : answered req s = true ↔ 0 < s.waiting (requestPort req) := by
  cases req <;> simp [answered, State.waiting, requestPort, Nat.pos_iff_ne_zero]

/-- The port of an event, if it is a call. -/
def Event.port : Event → Option Port
  | .call req _ => some (requestPort req)
  | .diag _ _ => none

/-- The ports of the calls of a trace, in order. -/
def portsCalled (es : List Event) : List Port := es.filterMap Event.port

@[simp] theorem portsCalled_call (req : Request) (res : Result) (es : List Event) :
    portsCalled (.call req res :: es) = requestPort req :: portsCalled es := rfl

@[simp] theorem portsCalled_diag (sid : Sid) (kind : BitVec 4) (es : List Event) :
    portsCalled (.diag sid kind :: es) = portsCalled es := rfl

@[simp] theorem portsCalled_append (es es' : List Event) :
    portsCalled (es ++ es') = portsCalled es ++ portsCalled es' := List.filterMap_append

theorem length_portsCalled {isCall : Event → Bool} (hcall : ∀ req res, isCall (.call req res) = true)
    (hdiag : ∀ sid kind, isCall (.diag sid kind) = false) (es : List Event) :
    (es.filter isCall).length = (portsCalled es).length := by
  induction es with
  | nil => rfl
  | cons e es ih =>
    cases e with
    | call req res => simp [hcall, ih]
    | diag sid kind => simp [hdiag, ih]

/-- The port of the call of a micro-operation, if it makes one (R101). -/
def microPort : Instr → Option Port
  | .initReset | .initEnum | .startConversion | .rtCmd | .rtByte | .resetBus | .enumerateNext _
  | .transaction _ _ | .readByte => some .bus
  | .dsLedOn | .dsSample | .dsLedOff | .hmSample | .digitalWrite _ | .analogRead _ => some .pin
  | .rtPersist | .dsPersist | .hmPersist | .insertReading _ _ _ => some .pers
  | .awaitConversion | .dsHoldRise | .dsHoldPulse | .dsHoldSettle | .sleep | .delay _ => some .dly
  | .idle | .rtCheck | .dsConvert | .fault | .diag _ _ => none

theorem microPort_of_call {req : Request} (h : callOfInstr i s = some req) :
    microPort i = some (requestPort req) := by
  cases i with
  | startConversion | rtCmd =>
    obtain ⟨adr, _, rfl⟩ := Option.map_eq_some_iff.mp h
    rfl
  | idle | rtCheck | dsConvert | fault | diag => cases h
  | _ => cases h; rfl

/-- The ports of the calls of a list of micro-operations. -/
def portsOf (is : List Instr) : List Port := is.filterMap microPort

theorem portsOf_cons (i : Instr) (is : List Instr) :
    portsOf (i :: is) = (microPort i).toList ++ portsOf is := by
  cases h : microPort i <;> simp [portsOf, h]

theorem portsOf_sublist {is js : List Instr} (h : js <:+ is) : (portsOf js).Sublist (portsOf is) :=
  h.sublist.filterMap _

/-! ## Calls and answers of one step -/

theorem portsCalled_diags {diags : List Event} (h : StepDiags diags) : portsCalled diags = [] := by
  obtain rfl | ⟨sid, kind, rfl, _⟩ | ⟨sid, rfl⟩ := h <;> rfl

/-- A step calls at most on the port of its micro-operation. -/
theorem Transition.portsCalled_sublist (h : Transition s t) (hd : decode (.seq s.seqWord) = .ok i) :
    (portsCalled (newEvents s t)).Sublist (microPort i).toList := by
  obtain ⟨calls, diags, htrace, hcalls, hdiags⟩ := h.addsAtMostItsCall
  rw [List.append_assoc] at htrace
  rw [newEvents_of_trace htrace, portsCalled_append, portsCalled_diags hdiags, List.append_nil]
  obtain ⟨req, res, hcall, rfl⟩ | ⟨rfl, _⟩ := hcalls
  · rw [microPort_of_call ((callOf_eq hd).symm.trans hcall)]
    exact List.Sublist.refl _
  · exact List.nil_sublist _

theorem State.advance_waiting (s : State) (p : Port) : s.advance.waiting p = s.waiting p := by
  obtain ⟨_, h⟩ | ⟨_, h⟩ := advance_cases s <;> rw [h] <;> cases p <;> rfl

/-- One answer less on port `q`, and as many as before on the others. -/
def TakesFrom (q : Port) (s t : State) : Prop := ∀ p, s.waiting p = t.waiting p + [q].count p

theorem takesFrom_bus {a : BusAnswer} (hbus : s.busIn = a :: t.busIn) (hpin : s.pinIn = t.pinIn)
    (hpers : s.persIn = t.persIn) (hdly : s.dlyIn = t.dlyIn) : TakesFrom .bus s t := by
  intro p
  cases p <;> simp [State.waiting, hbus, hpin, hpers, hdly]

theorem takesFrom_pin {a : PinAnswer} (hpin : s.pinIn = a :: t.pinIn) (hbus : s.busIn = t.busIn)
    (hpers : s.persIn = t.persIn) (hdly : s.dlyIn = t.dlyIn) : TakesFrom .pin s t := by
  intro p
  cases p <;> simp [State.waiting, hbus, hpin, hpers, hdly]

theorem takesFrom_pers {a : PersAnswer} (hpers : s.persIn = a :: t.persIn) (hbus : s.busIn = t.busIn)
    (hpin : s.pinIn = t.pinIn) (hdly : s.dlyIn = t.dlyIn) : TakesFrom .pers s t := by
  intro p
  cases p <;> simp [State.waiting, hbus, hpin, hpers, hdly]

theorem takesFrom_dly (hdly : s.dlyIn = t.dlyIn + 1) (hbus : s.busIn = t.busIn)
    (hpin : s.pinIn = t.pinIn) (hpers : s.persIn = t.persIn) : TakesFrom .dly s t := by
  intro p
  cases p <;> simp [State.waiting, hbus, hpin, hpers, hdly]

theorem TakesFrom.advance {q : Port} (h : TakesFrom q s t) : TakesFrom q s t.advance := by
  intro p
  rw [State.advance_waiting, h p]

/-- Between `s` and `t` each call took one answer off its port. -/
def AnswersMatchCalls (s t : State) : Prop :=
  ∀ p, s.waiting p = t.waiting p + (portsCalled (newEvents s t)).count p

theorem AnswersMatchCalls.of_call {q : Port} {es : List Event} (htakes : TakesFrom q s t)
    (htrace : t.trace = s.trace ++ es) (hports : portsCalled es = [q]) : AnswersMatchCalls s t := by
  intro p
  rw [newEvents_of_trace htrace, hports]
  exact htakes p

theorem AnswersMatchCalls.of_quiet {es : List Event} (hsame : ∀ p, s.waiting p = t.waiting p)
    (htrace : t.trace = s.trace ++ es) (hports : portsCalled es = []) : AnswersMatchCalls s t := by
  intro p
  rw [newEvents_of_trace htrace, hports]
  exact hsame p

theorem AnswersMatchCalls.of_silent (hsame : ∀ p, s.waiting p = t.waiting p)
    (htrace : t.trace = s.trace) : AnswersMatchCalls s t :=
  .of_quiet (es := []) hsame (by rw [htrace, List.append_nil]) rfl

open AnswersMatchCalls in
/-- The rows of the transition table (R225) by the port they call on. -/
theorem Transition.answersMatchCalls (h : Transition s t) : AnswersMatchCalls s t := by
  cases h with
  | waits | reserved | idle | rtCheckMatch | dsConvert | fault => exact of_silent (fun p => by cases p <;> rfl) rfl
  | rtCheckHalt => exact of_quiet (fun p => by cases p <;> rfl) rfl rfl
  | rtCheckRecover =>
    exact of_quiet (fun p => by rw [State.advance_waiting]; cases p <;> rfl) (State.advance_trace _) rfl
  | initResetOk _ _ hin | initResetNoDevices _ _ hin | initResetDataError _ _ hin | initEnumMore _ _ hin
  | initEnumLast _ _ hin | initEnumNone _ _ hin | initEnumFew _ _ hin | startConversion _ _ hin
  | rtCmd _ _ hin | rtByteMore _ _ _ hin | rtByteLast _ _ _ hin =>
    exact of_call (takesFrom_bus hin rfl rfl rfl) rfl rfl
  | dsLedOnOk _ _ hin | dsLedOnHalt _ _ hin | dsLedOnRecover _ _ hin | dsSample _ _ hin
  | dsLedOffOk _ _ hin | dsLedOffHalt _ _ hin | dsLedOffRecover _ _ hin | hmSample _ _ hin =>
    exact of_call (takesFrom_pin hin rfl rfl rfl) rfl rfl
  | rtPersistOk _ _ hin | rtPersistRecover _ _ hin =>
    exact of_call (TakesFrom.advance (takesFrom_pers hin rfl rfl rfl)) (State.advance_trace _) rfl
  | rtPersistHalt _ _ hin | dsPersistOk _ _ hin | dsPersistHalt _ _ hin | dsPersistRecover _ _ hin
  | hmPersistOk _ _ hin | hmPersistHalt _ _ hin | hmPersistRecover _ _ hin =>
    exact of_call (takesFrom_pers hin rfl rfl rfl) rfl rfl
  | awaitConversion _ _ hin | dsHoldRise _ _ hin | dsHoldPulse _ _ hin | dsHoldSettleMore _ _ hin
  | dsHoldSettleLast _ _ hin | sleep _ _ hin => exact of_call (takesFrom_dly hin rfl rfl rfl) rfl rfl

/-! ## What is left of a cycle (R126, R226, R227) -/

/-- The micro-operations of one probe, when nothing fails. -/
def probeLeg : List Instr :=
  [.startConversion, .awaitConversion] ++ PseudoOp.readTemperature.expand ++ [.rtPersist]

/-- From the humidity sample to the end of the cycle. -/
def humidityLeg : List Instr := PseudoOp.readHumidity.expand ++ [.hmPersist, .sleep]

/-- From sample `k` of the batch to the end of the cycle. -/
def fromSample (k : Nat) : List Instr :=
  (List.replicate (16 - k) sampleOps).flatten ++ .dsConvert :: .dsPersist :: humidityLeg

/-- From probe `p` of `n` to the end of the cycle. -/
def fromProbe (n p : Nat) : List Instr := (List.replicate (n - p) probeLeg).flatten ++ fromSample 0

theorem fromSample_of_lt {k : Nat} (h : k < 16) : fromSample k = sampleOps ++ fromSample (k + 1) := by
  rw [fromSample, show 16 - k = 16 - (k + 1) + 1 by omega, List.replicate_succ, List.flatten_cons,
    List.append_assoc, ← fromSample]

theorem fromProbe_of_lt {n p : Nat} (h : p < n) : fromProbe n p = probeLeg ++ fromProbe n (p + 1) := by
  rw [fromProbe, show n - p = n - (p + 1) + 1 by omega, List.replicate_succ, List.flatten_cons,
    List.append_assoc, ← fromProbe]

theorem fromProbe_of_ge {n p : Nat} (h : n ≤ p) : fromProbe n p = fromSample 0 := by
  rw [fromProbe, Nat.sub_eq_zero_of_le h]
  rfl

theorem humidityLeg_suffix_fromSample (k : Nat) : humidityLeg <:+ fromSample k :=
  ((List.suffix_cons _ _).trans (List.suffix_cons _ _)).trans (List.suffix_append _ _)

/-- What the cycle runs after the current probe. -/
def State.laterProbes (s : State) : List Instr := fromProbe s.cfg.nProbes (s.pidx.toNat + 1)

/-- What may still run after micro-operation `i` before the cycle ends, if nothing fails (R227): a failure only
skips some of it. -/
def State.mayFollow (s : State) : Instr → List Instr
  | .startConversion => probeLeg.drop 1 ++ s.laterProbes
  | .awaitConversion => probeLeg.drop 2 ++ s.laterProbes
  | .rtCmd => probeLeg.drop 3 ++ s.laterProbes
  | .rtByte => List.replicate (8 - s.bcnt.toNat) .rtByte ++ .rtCheck :: .rtPersist :: s.laterProbes
  | .rtCheck => .rtPersist :: s.laterProbes
  | .rtPersist => s.laterProbes
  | .dsLedOn => sampleOps.drop 1 ++ fromSample (s.k.toNat + 1)
  | .dsHoldRise => sampleOps.drop 2 ++ fromSample (s.k.toNat + 1)
  | .dsSample => sampleOps.drop 3 ++ fromSample (s.k.toNat + 1)
  | .dsHoldPulse => sampleOps.drop 4 ++ fromSample (s.k.toNat + 1)
  | .dsLedOff => sampleOps.drop 5 ++ fromSample (s.k.toNat + 1)
  | .dsHoldSettle => fromSample (s.k.toNat + 1)
  | .dsConvert => .dsPersist :: humidityLeg
  | .dsPersist => humidityLeg
  | .hmSample => humidityLeg.drop 1
  | .hmPersist => humidityLeg.drop 2
  | _ => []

/-- The longest the cycle can go on from a state. -/
def State.cycleLeft (s : State) : List Instr :=
  match decode (.seq s.seqWord) with
  | .ok i => i :: s.mayFollow i
  | .error _ => []

theorem cycleLeft_of_decode (h : decode (.seq s.seqWord) = .ok i) : s.cycleLeft = i :: s.mayFollow i := by
  simp [State.cycleLeft, h]

theorem cycleLeft_of_phase {x y : BitVec 4} (i : Instr) (hst : s.st = x) (hph : s.ph = y)
    (hrow : (x, y, i) ∈ phaseTable := by decide) : s.cycleLeft = i :: s.mayFollow i :=
  cycleLeft_of_decode (decode_of_phase (by rwa [hst, hph]))

/-- The states of a cycle: startup is over, and no fault (R227). -/
def State.InCycle (s : State) : Prop := 3 ≤ s.st.toNat ∧ s.st.toNat ≤ 8

/-- The step from `s` to `t` ends the cycle: the idle delay, or under `HALT` the entry to `FAULT`. -/
def EndsCycle (s t : State) : Prop :=
  (t.seqWord = 0x30 ∧ t.pidx = 0 ∧ ∃ e ∈ newEvents s t, e.endsCycle = true) ∨
    (s.pol = .halt ∧ t.seqWord = 0x90)

/-- The step from `s` to `t` leaves at most the rest of the cycle. -/
def GoesOn (s t : State) : Prop := t.InCycle ∧ t.cycleLeft <:+ s.cycleLeft.tail

theorem goesOn_of_suffix {x y : BitVec 4} (i : Instr) {is : List Instr} (hst : s.st = x) (hph : s.ph = y)
    (hcycle : t.InCycle) (hleft : t.cycleLeft = is) (h : is <:+ s.mayFollow i)
    (hrow : (x, y, i) ∈ phaseTable := by decide) : GoesOn s t := by
  rw [GoesOn, cycleLeft_of_phase i hst hph hrow, hleft]
  exact ⟨hcycle, h⟩

theorem inCycle_of_st {x : BitVec 4} (hst : s.st = x) (hx : 3 ≤ x.toNat ∧ x.toNat ≤ 8 := by decide) :
    s.InCycle := by
  rwa [State.InCycle, hst]

/-- From one phase of the cycle to another. -/
theorem goesOn_of_phase {x y x' y' : BitVec 4} (i j : Instr) (hst : s.st = x) (hph : s.ph = y)
    (hst' : t.st = x') (hph' : t.ph = y') (h : j :: t.mayFollow j <:+ s.mayFollow i)
    (hrow : (x, y, i) ∈ phaseTable := by decide) (hrow' : (x', y', j) ∈ phaseTable := by decide)
    (hcycle : 3 ≤ x'.toNat ∧ x'.toNat ≤ 8 := by decide) : GoesOn s t :=
  goesOn_of_suffix i hst hph (inCycle_of_st hst' hcycle) (cycleLeft_of_phase j hst' hph' hrow') h hrow

/-- The probe advance goes on with the legs after the current one (R218). -/
theorem cycleLeft_advance (s : State) : s.advance.cycleLeft = s.laterProbes := by
  have hn := nProbes_bounds s.cfg
  obtain ⟨hmore, heq⟩ | ⟨hlast, heq⟩ := advance_cases s <;> rw [heq, State.laterProbes]
  · have hnext : (BitVec.ofNat 8 (s.pidx.toNat + 1)).toNat = s.pidx.toNat + 1 := by
      rw [BitVec.toNat_ofNat]
      omega
    rw [cycleLeft_of_phase (x := 3) (y := 0) .startConversion rfl rfl, fromProbe_of_lt hmore, State.mayFollow,
      State.laterProbes, hnext]
    rfl
  · rw [cycleLeft_of_phase (x := 6) (y := 0) .dsLedOn rfl rfl, fromProbe_of_ge hlast,
      fromSample_of_lt (Nat.zero_lt_succ _)]
    rfl

theorem inCycle_advance (s : State) : s.advance.InCycle := by
  obtain h | h := s.advance_st
  · exact inCycle_of_st h
  · exact inCycle_of_st h

theorem goesOn_of_advance {x y : BitVec 4} (i : Instr) (hst : s.st = x) (hph : s.ph = y)
    (h : u.laterProbes <:+ s.mayFollow i)
    (hrow : (x, y, i) ∈ phaseTable := by decide) : GoesOn s u.advance :=
  goesOn_of_suffix i hst hph (inCycle_advance u) (cycleLeft_advance u) h hrow

/-- A failed batch goes on with the humidity leg (R179). -/
theorem goesOn_of_failed_batch {y : BitVec 4} {k : Nat} {is : List Instr} (i : Instr) (hst : s.st = 6)
    (hph : s.ph = y) (hst' : t.st = 7) (hph' : t.ph = 0) (hleft : s.mayFollow i = is ++ fromSample k)
    (hrow : (6, y, i) ∈ phaseTable := by decide) : GoesOn s t := by
  refine goesOn_of_phase i .hmSample hst hph hst' hph' ?_ hrow
  rw [hleft]
  exact (humidityLeg_suffix_fromSample k).trans (List.suffix_append _ _)

/-- Each row of the transition table (R225) inside the cycle ends it or leaves at most the rest of it. -/
theorem Transition.endsCycle_or_goesOn (h : Transition s t) (hs : s.Inv) (hcycle : s.InCycle)
    (hanswered : ∀ req, callOf s = some req → answered req s = true) : EndsCycle s t ∨ GoesOn s t := by
  cases h with
  | waits hcall hno => exact absurd (hanswered _ hcall) (by simp [hno])
  | reserved hd =>
    obtain ⟨i, hi⟩ := hs.wordDefined
    cases hi.symm.trans hd
  -- outside the cycle
  | initResetOk hst | initResetNoDevices hst | initResetDataError hst | initEnumMore hst | initEnumLast hst
  | initEnumNone hst | initEnumFew hst | idle hst | fault hst => simp [State.InCycle, hst] at hcycle
  -- the ends of the cycle
  | sleep hst =>
    refine .inl (.inl ⟨seqWord_of_phase (x := 3) (y := 0) rfl rfl, hs.pidxZero hst, ?_⟩)
    rw [newEvents_of_trace rfl]
    exact ⟨_, List.mem_cons_self, rfl⟩
  | rtCheckHalt _ _ _ hpol | rtPersistHalt _ _ _ _ hpol | dsLedOnHalt _ _ _ _ hpol
  | dsLedOffHalt _ _ _ _ hpol | dsPersistHalt _ _ _ _ hpol | hmPersistHalt _ _ _ _ hpol =>
    exact .inl (.inr ⟨hpol, seqWord_of_phase (x := 9) (y := 0) rfl rfl⟩)
  -- the temperature leg
  | startConversion hst hph =>
    exact .inr (goesOn_of_phase .startConversion .awaitConversion hst hph (x' := 4) rfl hph List.suffix_rfl)
  | awaitConversion hst hph =>
    exact .inr (goesOn_of_phase .awaitConversion .rtCmd hst hph (x' := 5) (y' := 0) rfl rfl List.suffix_rfl)
  | rtCmd hst hph =>
    exact .inr (goesOn_of_phase .rtCmd .rtByte hst hph (y' := 1) hst rfl List.suffix_rfl)
  | rtByteMore hb hst hph _ hmore =>
    have hnext : (BitVec.ofNat 4 (s.bcnt.toNat + 1)).toNat = s.bcnt.toNat + 1 := by
      rw [BitVec.toNat_ofNat]
      omega
    refine .inr (goesOn_of_phase .rtByte .rtByte hst hph hst hph ?_)
    rw [State.mayFollow, State.mayFollow, hnext, ← List.cons_append, ← List.replicate_succ,
      show 8 - (s.bcnt.toNat + 1) + 1 = 8 - s.bcnt.toNat by omega]
    exact List.suffix_rfl
  | rtByteLast _ hst hph =>
    exact .inr (goesOn_of_phase .rtByte .rtCheck hst hph (y' := 2) hst rfl (List.suffix_append _ _))
  | rtCheckMatch hst hph =>
    exact .inr (goesOn_of_phase .rtCheck .rtPersist hst hph (y' := 3) hst rfl List.suffix_rfl)
  | rtCheckRecover hst hph =>
    exact .inr (goesOn_of_advance .rtCheck hst hph (List.suffix_cons _ _))
  | rtPersistOk hst hph | rtPersistRecover hst hph =>
    exact .inr (goesOn_of_advance .rtPersist hst hph List.suffix_rfl)
  -- the dust leg
  | dsLedOnOk hst hph =>
    exact .inr (goesOn_of_phase .dsLedOn .dsHoldRise hst hph (y' := 1) hst rfl List.suffix_rfl)
  | dsHoldRise hst hph =>
    exact .inr (goesOn_of_phase .dsHoldRise .dsSample hst hph (y' := 2) hst rfl List.suffix_rfl)
  | dsSample hst hph =>
    exact .inr (goesOn_of_phase .dsSample .dsHoldPulse hst hph (y' := 3) hst rfl List.suffix_rfl)
  | dsHoldPulse hst hph =>
    exact .inr (goesOn_of_phase .dsHoldPulse .dsLedOff hst hph (y' := 4) hst rfl List.suffix_rfl)
  | dsLedOffOk hst hph =>
    exact .inr (goesOn_of_phase .dsLedOff .dsHoldSettle hst hph (y' := 5) hst rfl List.suffix_rfl)
  | dsLedOnRecover hst hph => exact .inr (goesOn_of_failed_batch .dsLedOn hst hph rfl rfl rfl)
  | dsLedOffRecover hst hph => exact .inr (goesOn_of_failed_batch .dsLedOff hst hph rfl rfl rfl)
  | dsHoldSettleMore hst hph _ hmore =>
    have hk := hs.k_lt hst hph
    have hnext : (narrow 5 (s.k.toNat + 1)).toNat = s.k.toNat + 1 := toNat_narrow (by omega)
    refine .inr (goesOn_of_phase .dsHoldSettle .dsLedOn hst hph (y' := 0) hst rfl ?_)
    rw [State.mayFollow, State.mayFollow, hnext, fromSample_of_lt (k := s.k.toNat + 1) (by omega)]
    exact List.suffix_rfl
  | dsHoldSettleLast hst hph _ hlast =>
    refine .inr (goesOn_of_phase .dsHoldSettle .dsConvert hst hph (y' := 6) hst rfl ?_)
    rw [State.mayFollow, State.mayFollow, hlast]
    exact List.suffix_rfl
  | dsConvert hst hph =>
    exact .inr (goesOn_of_phase .dsConvert .dsPersist hst hph (y' := 7) hst rfl List.suffix_rfl)
  | dsPersistOk hst hph | dsPersistRecover hst hph =>
    exact .inr (goesOn_of_phase .dsPersist .hmSample hst hph (x' := 7) (y' := 0) rfl rfl List.suffix_rfl)
  -- the humidity leg
  | hmSample hst hph =>
    exact .inr (goesOn_of_phase .hmSample .hmPersist hst hph (y' := 1) hst rfl List.suffix_rfl)
  | hmPersistOk hst hph | hmPersistRecover hst hph =>
    exact .inr (goesOn_of_phase .hmPersist .sleep hst hph (x' := 8) (y' := 0) rfl rfl List.suffix_rfl)

/-! ## A cycle with its answers waiting (R230) -/

/-- Every port has an answer for each call the list makes on it. -/
def State.Supplies (s : State) (is : List Instr) : Prop := ∀ p, (portsOf is).count p ≤ s.waiting p

theorem State.Supplies.answered {is : List Instr} (h : s.Supplies (i :: is))
    (hd : decode (.seq s.seqWord) = .ok i) (req : Request) (hcall : callOf s = some req) :
    answered req s = true := by
  have hport := microPort_of_call ((callOf_eq hd).symm.trans hcall)
  have hcount := h (requestPort req)
  rw [portsOf_cons, hport, Option.toList_some, List.singleton_append, List.count_cons_self] at hcount
  exact answered_iff.mpr (Nat.zero_lt_of_lt hcount)

/-- A step takes no more than its own call's answer, so the rest of the list stays supplied. -/
theorem State.Supplies.next {is js : List Instr} (h : s.Supplies (i :: is)) (hstep : Transition s t)
    (hd : decode (.seq s.seqWord) = .ok i) (hjs : js <:+ is) : t.Supplies js := by
  intro p
  have hall := h p
  have hmatch := hstep.answersMatchCalls p
  have hcalls := (hstep.portsCalled_sublist hd).count_le p
  have hrest := (portsOf_sublist hjs).count_le p
  rw [portsOf_cons, List.count_append] at hall
  omega

/-- `n` steps lead from `s` to the end of the cycle in `t`, with no more steps and calls than the list has. -/
structure CycleRun (s : State) (is : List Instr) (n : Nat) (t : State) : Prop where
  run : runSteps n s = .next t
  steps : n ≤ is.length
  calls : (portsCalled (newEvents s t)).Sublist (portsOf is)
  ends : EndsCycle s t

theorem CycleRun.of_step {is : List Instr} (hd : decode (.seq s.seqWord) = .ok i) (hstep : step s = .next t)
    (hends : EndsCycle s t) : CycleRun s (i :: is) 1 t :=
  { run := runSteps_of_step hstep
    steps := Nat.le_add_left ..
    calls := by
      rw [portsOf_cons]
      exact ((transition_of_step hstep).portsCalled_sublist hd).trans (List.sublist_append_left _ _)
    ends := hends }

theorem runSteps_trace {n : Nat} (h : runSteps n s = .next t) : t.trace = s.trace ++ newEvents s t :=
  runSteps_induction (motive := fun s es t => t.trace = s.trace ++ es)
    (fun s => (List.append_nil s.trace).symm)
    (fun hstep htrace => by rw [htrace, hstep.addsAtMostItsCall.trace_eq, List.append_assoc]) h

theorem newEvents_of_step_of_run {n : Nat} (hstep : Transition s u) (hrun : runSteps n u = .next t) :
    newEvents s t = newEvents s u ++ newEvents u t := by
  apply newEvents_of_trace
  rw [runSteps_trace hrun, hstep.addsAtMostItsCall.trace_eq, List.append_assoc]

theorem CycleRun.cons {is js : List Instr} {n : Nat} (hd : decode (.seq s.seqWord) = .ok i)
    (hstep : step s = .next u) (hjs : js <:+ is) (h : CycleRun u js n t) :
    CycleRun s (i :: is) (n + 1) t := by
  have htrans := transition_of_step hstep
  have hevents := newEvents_of_step_of_run htrans h.run
  refine { run := (runSteps_of_step hstep).trans h.run, steps := ?steps, calls := ?calls, ends := ?ends }
  case steps => exact Nat.succ_le_succ (h.steps.trans hjs.length_le)
  case calls =>
    rw [hevents, portsCalled_append, portsOf_cons]
    exact (htrans.portsCalled_sublist hd).append (h.calls.trans (portsOf_sublist hjs))
  case ends =>
    rw [EndsCycle, hevents, ← htrans.cfg_pol_eq.2]
    exact h.ends.imp_left fun ⟨hword, hpidx, e, he, hend⟩ =>
      ⟨hword, hpidx, e, List.mem_append_right _ he, hend⟩

/-- Supplied with answers, a cycle comes to its end within what is left of it: each step shortens that. -/
theorem exists_cycleRun (hs : s.Inv) (hcycle : s.InCycle) (hsupply : s.Supplies s.cycleLeft) :
    ∃ n t, CycleRun s s.cycleLeft n t := by
  induction hm : s.cycleLeft.length using Nat.strong_induction_on generalizing s with
  | _ m ih =>
    obtain ⟨i, hd⟩ := hs.wordDefined
    obtain ⟨u, hstep⟩ := hs.exists_step
    have htrans := transition_of_step hstep
    have hleft := cycleLeft_of_decode hd
    rw [hleft] at hsupply hm ⊢
    obtain hends | ⟨hcycle', hsuffix⟩ := htrans.endsCycle_or_goesOn hs hcycle (hsupply.answered hd)
    · exact ⟨1, u, .of_step hd hstep hends⟩
    · rw [hleft, List.tail_cons] at hsuffix
      have hshorter : u.cycleLeft.length < m := hm ▸ Nat.lt_succ_of_le hsuffix.length_le
      obtain ⟨n, t, hrun⟩ := ih _ hshorter (htrans.keeps_inv hs) hcycle'
        (hsupply.next htrans hd hsuffix) rfl
      exact ⟨n + 1, t, hrun.cons hd hstep hsuffix⟩

/-! ## The size of a whole cycle (R230) -/

theorem cycleLeft_of_start (hword : s.seqWord = 0x30) (hpidx : s.pidx = 0) :
    s.cycleLeft = fromProbe s.cfg.nProbes 0 := by
  obtain ⟨hst, hph⟩ : s.st = 3 ∧ s.ph = 0 := packSeq_inj hword
  have hzero : s.pidx.toNat = 0 := by rw [hpidx]; rfl
  rw [cycleLeft_of_phase .startConversion hst hph, State.mayFollow, State.laterProbes, hzero,
    fromProbe_of_lt (nProbes_bounds s.cfg).1]
  rfl

theorem length_fromProbe (n : Nat) : (fromProbe n 0).length = 14 * n + 101 := by
  have hprobe : probeLeg.length = 14 := rfl
  have hrest : (fromSample 0).length = 101 := rfl
  simp [fromProbe, hprobe, hrest, Nat.mul_comm]

theorem portsOf_fromProbe (n : Nat) :
    portsOf (fromProbe n 0) = (List.replicate n (portsOf probeLeg)).flatten ++ portsOf (fromSample 0) := by
  simp [fromProbe, portsOf, List.filterMap_flatten]

theorem length_portsOf_fromProbe (n : Nat) : (portsOf (fromProbe n 0)).length = 13 * n + 100 := by
  have hprobe : (portsOf probeLeg).length = 13 := rfl
  have hrest : (portsOf (fromSample 0)).length = 100 := rfl
  simp [portsOf_fromProbe, hprobe, hrest, Nat.mul_comm]

theorem count_portsOf_fromProbe (n : Nat) (p : Port) :
    (portsOf (fromProbe n 0)).count p =
      n * (portsOf probeLeg).count p + (portsOf (fromSample 0)).count p := by
  simp [portsOf_fromProbe, List.count_flatten]

/-- The answers R230 counts supply a whole cycle. -/
theorem supplies_cycle (hbus : 11 * s.cfg.nProbes ≤ s.busIn.length) (hpin : 49 ≤ s.pinIn.length)
    (hpers : s.cfg.nProbes + 2 ≤ s.persIn.length) (hdly : s.cfg.nProbes + 49 ≤ s.dlyIn) :
    s.Supplies (fromProbe s.cfg.nProbes 0) := by
  intro p
  rw [count_portsOf_fromProbe]
  cases p with
  | bus => change s.cfg.nProbes * 11 + 0 ≤ s.busIn.length; omega
  | pin => change s.cfg.nProbes * 0 + 49 ≤ s.pinIn.length; omega
  | pers => change s.cfg.nProbes * 1 + 2 ≤ s.persIn.length; omega
  | dly => change s.cfg.nProbes * 1 + 49 ≤ s.dlyIn; omega

/-- Settles O50: the run of `exists_cycleRun`, measured by the list of a whole cycle. -/
theorem everyAnsweredCycleEnds : Obligations.EveryAnsweredCycleEnds := by
  intro s hs hword hpidx hbus hpin hpers hdly
  have hcycle : s.InCycle := inCycle_of_st (st_of_seqWord (x := 3) (y := 0) hword)
  have hstart := cycleLeft_of_start hword hpidx
  have hsupply : s.Supplies s.cycleLeft := hstart ▸ supplies_cycle hbus hpin hpers hdly
  obtain ⟨n, t, hrun⟩ := exists_cycleRun hs hcycle hsupply
  rw [hstart] at hrun
  have hsteps := hrun.steps
  have hcalls := hrun.calls.length_le
  rw [length_fromProbe] at hsteps
  rw [length_portsOf_fromProbe] at hcalls
  exact ⟨n, t, hsteps, hrun.run, hrun.ends,
    (length_portsCalled (fun _ _ => rfl) (fun _ _ => rfl) _).trans_le hcalls⟩

end Sys2Proof.Machine
end

section
/-! Proofs of O34 and O35: what raising a failure does, and where `FAULT` is entered under `RECOVER`. -/

namespace Sys2Proof.Machine

variable {s t : State}

/-! ## Raising a failure (R256, R257) -/

/-- A fatal kind enters `FAULT` under either policy, whatever its failure successor. -/
theorem raise_of_fatal {e : ErrorKind} (h : isFatal e = true) (s : State) (sid : Sid)
    (onward : State → State) :
    s.raise e sid onward = { s with
      trace := s.trace ++ [.diag sid (errorCode e)], fault := true, faultCode := errorCode e,
      faultSid := sid, st := 9, ph := 0 } := by
  obtain ⟨rfl, _⟩ | ⟨_, _, heq⟩ | ⟨_, hno, _⟩ := raise_cases s e sid onward
  · cases h
  · exact heq
  · cases h.symm.trans hno

/-- The codes of the fatal kinds (R116, R257). -/
theorem fatal_kinds : ∀ p ∈ [(ErrorKind.noDevicesFound, 1#4), (.insufficientDevices, 2#4),
    (.busDataError, 3#4)], isFatal p.1 = true ∧ errorCode p.1 = p.2 := by decide

/-- The codes of the kinds the policy decides (R116, R257). -/
theorem policy_kinds : ∀ p ∈ [(ErrorKind.crcMismatch, 6#4), (.batchCollectionError, 7#4),
    (.persistenceError, 8#4)],
    p.1 ≠ .pinWriteError ∧ isFatal p.1 = false ∧ errorCode p.1 = p.2 := by decide

/-- Settles O34: one case for each way `raise` ends. -/
theorem raiseReportsThenFaultsOrContinues : Obligations.RaiseReportsThenFaultsOrContinues := by
  intro s sid onward
  refine ⟨rfl, fun e code he => ?fatal, fun e code he => ?policy⟩
  case fatal =>
    obtain ⟨hfatal, hcode⟩ : isFatal e = true ∧ errorCode e = code := fatal_kinds _ he
    subst hcode
    exact raise_of_fatal hfatal s sid onward
  case policy =>
    obtain ⟨hpin, hfatal, hcode⟩ : e ≠ .pinWriteError ∧ isFatal e = false ∧ errorCode e = code :=
      policy_kinds _ he
    subst hcode
    obtain ⟨hpol, heq⟩ | ⟨hpol, heq⟩ := raise_policy (s := s) hpin hfatal sid onward
    · exact ⟨fun _ => heq, fun hpol' => nomatch hpol.symm.trans hpol'⟩
    · exact ⟨fun hpol' => (nomatch hpol.symm.trans hpol'), fun _ => heq⟩

/-! ## Entering FAULT (R225, R257) -/

/-- The rows of the transition table that lead to `FAULT`: those of startup and of `FAULT` itself, those of a failure
under `HALT`, and a reserved word's. -/
theorem Transition.into_fault (h : Transition s t) (hst : t.st = 9) :
    (s.st = 0 ∨ s.st = 1 ∨ s.st = 9) ∨ s.pol = .halt ∨ ∃ e, decode (.seq s.seqWord) = .error e := by
  cases h with
  | waits | fault => exact .inl (.inr (.inr hst))
  | reserved hd => exact .inr (.inr ⟨_, hd⟩)
  | initResetNoDevices hst' | initResetDataError hst' => exact .inl (.inl hst')
  | initEnumMore hst' | initEnumNone hst' | initEnumFew hst' => exact .inl (.inr (.inl hst'))
  | rtCheckHalt _ _ _ hpol | rtPersistHalt _ _ _ _ hpol | dsLedOnHalt _ _ _ _ hpol
  | dsLedOffHalt _ _ _ _ hpol | dsPersistHalt _ _ _ _ hpol | hmPersistHalt _ _ _ _ hpol =>
    exact .inr (.inl hpol)
  | rtCheckRecover | rtPersistOk | rtPersistRecover => exact absurd hst State.advance_st_ne
  | rtCmd hst' | rtByteMore _ hst' | rtByteLast _ hst' | rtCheckMatch hst' | dsLedOnOk hst'
  | dsHoldRise hst' | dsSample hst' | dsHoldPulse hst' | dsLedOffOk hst' | dsHoldSettleMore hst'
  | dsHoldSettleLast hst' | dsConvert hst' | hmSample hst' => cases hst'.symm.trans hst
  | _ => cases hst

/-- The two startup states and `FAULT` have one micro-operation each (R101). -/
theorem startup_or_fault_of_row : ∀ row ∈ phaseTable, row.1 = 0 ∨ row.1 = 1 ∨ row.1 = 9 →
    row.2.2 = .initReset ∨ row.2.2 = .initEnum ∨ row.2.2 = .fault := by decide

/-- Settles O35: the policy is not `HALT` and a decoded word is not reserved, so the state is one of the three. -/
theorem recoverFaultsOnlyAtStartup : Obligations.RecoverFaultsOnlyAtStartup := by
  intro s t i hpol hd hstep hst
  obtain hfrom | hhalt | ⟨e, he⟩ := (transition_of_step hstep).into_fault hst
  · exact startup_or_fault_of_row _ (phase_of_decode hd) hfrom
  · cases hpol.symm.trans hhalt
  · cases hd.symm.trans he

end Sys2Proof.Machine
end

section
/-! Proof of O49: a run out of `FAULT` accounts for every id it goes past. -/

namespace Sys2Proof.Machine

variable {s t u : State} {es es' : List Event} {sid : Sid}

/-! ## Accounting for a sensor (R275) -/

theorem storedRecords_append (es es' : List Event) :
    storedRecords (es ++ es') = storedRecords es ++ storedRecords es' := by
  fun_induction storedRecords es with
  | case1 => rfl
  | _ => simp [storedRecords, *]

theorem accountsFor.append_right (h : accountsFor sid es) (es' : List Event) :
    accountsFor sid (es ++ es') := by
  obtain ⟨vkind, vnum, hmem⟩ | ⟨kind, hmem⟩ := h
  · exact .inl ⟨vkind, vnum, by rw [storedRecords_append]; exact List.mem_append_left _ hmem⟩
  · exact .inr ⟨kind, List.mem_append_left _ hmem⟩

theorem accountsFor.append_left (h : accountsFor sid es') (es : List Event) :
    accountsFor sid (es ++ es') := by
  obtain ⟨vkind, vnum, hmem⟩ | ⟨kind, hmem⟩ := h
  · exact .inl ⟨vkind, vnum, by rw [storedRecords_append]; exact List.mem_append_right _ hmem⟩
  · exact .inr ⟨kind, List.mem_append_right _ hmem⟩

theorem accountsFor_of_stored (sid : Sid) (vkind : Vkind) (vnum : Vnum) (es : List Event) :
    accountsFor sid (.call (.insertReading sid vkind vnum) (.status .ok) :: es) :=
  .inl ⟨vkind, vnum, List.mem_cons_self⟩

theorem accountsFor_of_diag (sid : Sid) (kind : BitVec 4) (es : List Event) :
    accountsFor sid (.diag sid kind :: es) :=
  .inr ⟨kind, List.mem_cons_self⟩

theorem accountsFor_of_failed_call (req : Request) (res : Result) (sid : Sid) (kind : BitVec 4)
    (es : List Event) : accountsFor sid (.call req res :: .diag sid kind :: es) :=
  (accountsFor_of_diag sid kind es).append_left [.call req res]

/-! ## Ids gone past -/

/-- Past the last id once both other sensors' records are sent. -/
theorem State.nextId_sleep (hst : s.st = 8) : s.nextId = s.cfg.nProbes + 3 := by
  simp [State.nextId, hst]

/-- If `t` is not in `FAULT`, which has no return, then neither is `s`, and the events `es` between them account for
every id from the next one of `s` to below that of `t`. -/
def Accounts (s : State) (es : List Event) (t : State) : Prop :=
  t.st ≠ 9 → s.st ≠ 9 ∧ ∀ sid : Sid, s.nextId ≤ sid.toNat → sid.toNat < t.nextId → accountsFor sid es

theorem Accounts.of_fault (hst : t.st = 9) : Accounts s es t := fun hno => absurd hst hno

/-- No id is gone past; over the idle delay the next id even falls back to the first. -/
theorem Accounts.of_nextId_le (hst : s.st ≠ 9) (h : t.nextId ≤ s.nextId) : Accounts s es t :=
  fun _ => ⟨hst, fun _ hlo hhi => absurd (hlo.trans_lt hhi) h.not_gt⟩

theorem Accounts.refl (s : State) (es : List Event) : Accounts s es s := by
  by_cases hst : s.st = 9
  · exact .of_fault hst
  · exact .of_nextId_le hst le_rfl

theorem Accounts.append (h : Accounts s es u) (h' : Accounts u es' t) : Accounts s (es ++ es') t := by
  intro hst
  obtain ⟨hst, hrest⟩ := h' hst
  obtain ⟨hst, hfirst⟩ := h hst
  refine ⟨hst, fun sid hlo hhi => ?_⟩
  obtain hlt | hge := lt_or_ge sid.toNat u.nextId
  · exact (hfirst sid hlo hlt).append_right _
  · exact (hrest sid hge hhi).append_left _

/-- The step goes past the one id it accounts for. -/
theorem Accounts.of_one (hst : s.st ≠ 9) (htrace : t.trace = s.trace ++ es) (hlo : s.nextId = sid.toNat)
    (hhi : t.nextId = sid.toNat + 1) (hes : accountsFor sid es) : Accounts s (newEvents s t) t := by
  rw [newEvents_of_trace htrace]
  refine fun _ => ⟨hst, fun id hid hid' => ?_⟩
  obtain rfl : id = sid := BitVec.eq_of_toNat_eq (by omega)
  exact hes

/-- A step from the temperature leg through the probe advance goes past the probe's id. -/
theorem Accounts.of_advance (hs : s.Inv) (hst : s.st = 5) (htrace : u.trace = s.trace ++ es)
    (hpidx : u.pidx = s.pidx) (hcfg : u.cfg = s.cfg) (hes : accountsFor (sidTemp s.pidx) es) :
    Accounts s (newEvents s u.advance) u.advance := by
  have hid := toNat_sidTemp hs.pidxRange
  refine of_one (by simp [hst]) ((State.advance_trace u).trans htrace) ?_ ?_ hes
  · rw [State.nextId_probe hst, hid]
  · rw [State.nextId_advance (by rw [hpidx, hcfg]; exact hs.pidxRange), hpidx, hid]

/-- A step from the dust leg to the humidity leg goes past the dust sensor's id. -/
theorem Accounts.of_dust (hst : s.st = 6) (htrace : t.trace = s.trace ++ es) (hst' : t.st = 7)
    (hcfg : t.cfg = s.cfg) (hes : accountsFor (sidDust s.cfg) es) : Accounts s (newEvents s t) t := by
  have hid := toNat_sidDust s.cfg
  refine of_one (by simp [hst]) htrace ?_ ?_ hes
  · rw [State.nextId_dust hst, hid]
  · rw [State.nextId_hum hst', hcfg, hid]

/-- A step from the humidity leg to the idle delay goes past the humidity sensor's id. -/
theorem Accounts.of_hum (hst : s.st = 7) (htrace : t.trace = s.trace ++ es) (hst' : t.st = 8)
    (hcfg : t.cfg = s.cfg) (hes : accountsFor (sidHum s.cfg) es) : Accounts s (newEvents s t) t := by
  have hid := toNat_sidHum s.cfg
  refine of_one (by simp [hst]) htrace ?_ ?_ hes
  · rw [State.nextId_hum hst, hid]
  · rw [State.nextId_sleep hst', hcfg, hid]

open Accounts in
/-- Each row of the transition table (R225): only those that end a sensor's turn go past an id, and each of these
stores the sensor's record or names it in a diagnostic. -/
theorem Transition.accounts (h : Transition s t) (hs : s.Inv) : Accounts s (newEvents s t) t := by
  have hp := hs.pidxRange
  cases h with
  | waits | fault => exact refl s _
  | reserved | initResetNoDevices | initResetDataError | initEnumNone | initEnumFew | rtCheckHalt
  | rtPersistHalt | dsLedOnHalt | dsLedOffHalt | dsPersistHalt | hmPersistHalt => exact of_fault rfl
  -- within a sensor's turn, before the first and after the last
  | initResetOk hst | initEnumMore hst | initEnumLast hst | idle hst | startConversion hst
  | awaitConversion hst | rtCmd hst | rtByteMore _ hst | rtByteLast _ hst | rtCheckMatch hst
  | dsLedOnOk hst | dsHoldRise hst | dsSample hst | dsHoldPulse hst | dsLedOffOk hst
  | dsHoldSettleMore hst | dsHoldSettleLast hst | dsConvert hst | hmSample hst =>
    exact of_nextId_le (by simp [hst]) (by simp [State.nextId, hst])
  | sleep hst =>
    refine of_nextId_le (by simp [hst]) ?_
    rw [State.nextId_probe (x := 3) rfl, State.nextId_sleep hst]
    exact Nat.succ_le_succ (hp.le.trans (Nat.le_add_right _ 2))
  -- the end of a sensor's turn
  | rtCheckRecover hst => exact of_advance hs hst rfl rfl rfl (accountsFor_of_diag ..)
  | rtPersistOk hst => exact of_advance hs hst rfl rfl rfl (accountsFor_of_stored ..)
  | rtPersistRecover hst => exact of_advance hs hst rfl rfl rfl (accountsFor_of_failed_call ..)
  | dsLedOnRecover hst | dsLedOffRecover hst | dsPersistRecover hst =>
    exact of_dust hst rfl rfl rfl (accountsFor_of_failed_call ..)
  | dsPersistOk hst => exact of_dust hst rfl rfl rfl (accountsFor_of_stored ..)
  | hmPersistRecover hst => exact of_hum hst rfl rfl rfl (accountsFor_of_failed_call ..)
  | hmPersistOk hst => exact of_hum hst rfl rfl rfl (accountsFor_of_stored ..)

/-- Settles O49: from the first id to `SLEEP` the run goes past every id, even if it holds several cycles. -/
theorem noReadingIsLostSilently : Obligations.NoReadingIsLostSilently := by
  intro n s t hs hstart hpidx hrun hend _ sid hlo hhi
  have hst : s.st = 3 := st_of_seqWord (y := 0) hstart
  have hst' : t.st = 8 := st_of_seqWord (y := 0) hend
  have haccounts : Accounts s (newEvents s t) t := by
    refine runSteps_induction (motive := fun s es t => s.Inv → Accounts s es t)
      (fun s _ => .refl s []) ?_ hrun hs
    exact fun hstep ih hs => (hstep.accounts hs).append (ih (hstep.keeps_inv hs))
  obtain ⟨_, hall⟩ := haccounts (by simp [hst'])
  refine hall sid ?_ ?_
  · rw [State.nextId_probe hst, hpidx]
    exact hlo
  · rw [State.nextId_sleep hst', runSteps_cfg hrun]
    omega

end Sys2Proof.Machine
end

section
/-! Proof of O58: what the end of the trace is in each phase, and so just before each insert. -/

namespace Sys2Proof.Machine

variable {s t : State} {es : List Event} {counts : List Count} {r : Count} {n : Nat}

/-! ## Where a value comes from (R275) -/

/-- The call of `RT_BYTE` that returned `b` (R149). -/
def readEvent (b : Byte) : Event := .call .readByte (.byte b)

/-- The events end with the nine bytes of a frame whose CRC matches, and the value is its decoded field (R150). -/
def FrameSource (cfg : Config) (es : List Event) (kind : Vkind) (num : Vnum) : Prop :=
  ∃ (earlier : List Event) (frame : Vector Byte 9), es = earlier ++ frame.toList.map readEvent ∧
    crc8 cfg (framePayload frame) = frame[8] ∧
    kind = 1 ∧ num = (frame[1] ++ frame[0] : BitVec 16).signExtend 39

/-- The events end with sixteen complete samples, and the value is the density of their sum (R180). -/
def BatchSource (es : List Event) (kind : Vkind) (num : Vnum) : Prop :=
  ∃ (earlier : List Event) (counts : List Count), counts.length = 16 ∧
    es = earlier ++ counts.flatMap sampleEvents ∧
    kind = 2 ∧ num = vnumOf (dustNum (counts.map BitVec.toNat).sum)

/-- The events end with one humidity read, and the value is its quadratic (R202). -/
def CountSource (es : List Event) (kind : Vkind) (num : Vnum) : Prop :=
  ∃ (earlier : List Event) (count : Count),
    es = earlier ++ [.call (.analogRead .hum) (.count count)] ∧
    kind = 3 ∧ num = vnumOf (humNum count.toNat)

/-- The events end with the calls the value is computed from. -/
def Source (cfg : Config) (es : List Event) (kind : Vkind) (num : Vnum) : Prop :=
  FrameSource cfg es kind num ∨ BatchSource es kind num ∨ CountSource es kind num

/-! ## The end of the trace in each phase -/

/-- The bytes of the frame read so far, from byte 0. -/
def State.bytesRead (s : State) : List Byte := s.sp.toList.take s.bcnt.toNat

/-- The events end with the complete samples `counts`, and the register holds their sum (R40). -/
structure State.SampledUpTo (s : State) (counts : List Count) (es : List Event) : Prop where
  sum : s.sum.toNat = (counts.map BitVec.toNat).sum
  ends : counts.flatMap sampleEvents <:+ es

/-- Inside a batch: the events end with the complete samples `counts` and the first `n` calls of one whose count is
`r`, which the sum holds from the third call on (R173 to R178). -/
structure State.Sampling (s : State) (counts : List Count) (r : Count) (n : Nat) (es : List Event) :
    Prop where
  count : s.k.toNat = counts.length
  batch : counts.length < 16
  sum : s.sum.toNat = (counts.map BitVec.toNat).sum + if n ≤ 2 then 0 else r.toNat
  ends : counts.flatMap sampleEvents ++ (sampleEvents r).take n <:+ es

/-- What the events are, in a state about to run micro-operation `i`: inside a sample the phase is the number of
calls it has made. -/
def State.FreshAt (s : State) (es : List Event) : Instr → Prop
  | .rtByte => s.bytesRead.map readEvent <:+ es
  | .rtCheck => s.sp.toList.map readEvent <:+ es
  | .rtPersist => FrameSource s.cfg es s.vkind s.vnum
  | .dsLedOn | .dsHoldRise | .dsSample | .dsHoldPulse | .dsLedOff | .dsHoldSettle =>
    ∃ counts r, s.Sampling counts r s.ph.toNat es
  | .dsConvert => ∃ counts, counts.length = 16 ∧ s.SampledUpTo counts es
  | .dsPersist => BatchSource es s.vkind s.vnum
  | .hmPersist => CountSource es s.vkind s.vnum
  | _ => True

/-- The events end as the micro-operation of the phase needs them. -/
def State.Fresh (s : State) (es : List Event) : Prop :=
  ∀ i, (s.st, s.ph, i) ∈ phaseTable → s.FreshAt es i

theorem phaseTable_functional : ∀ p ∈ phaseTable, ∀ q ∈ phaseTable,
    p.1 = q.1 → p.2.1 = q.2.1 → p.2.2 = q.2.2 := by decide

theorem State.Fresh.at {x y : BitVec 4} (i : Instr) (h : s.Fresh es) (hst : s.st = x) (hph : s.ph = y)
    (hrow : (x, y, i) ∈ phaseTable := by decide) : s.FreshAt es i :=
  h i (by rwa [hst, hph])

theorem State.Fresh.of_phase {x y : BitVec 4} (i : Instr) (hst : s.st = x) (hph : s.ph = y)
    (h : s.FreshAt es i) (hrow : (x, y, i) ∈ phaseTable := by decide) : s.Fresh es := by
  subst hst hph
  intro j hj
  obtain rfl : i = j := phaseTable_functional _ hrow _ hj rfl rfl
  exact h

/-- Outside the three legs nothing is asked of the events. -/
theorem State.Fresh.of_st {x : BitVec 4} (hst : s.st = x) (hx : x ≠ 5 ∧ x ≠ 6 ∧ x ≠ 7 := by decide) :
    s.Fresh es := by
  subst hst
  intro i hi
  have hrow : ∀ p ∈ phaseTable, p.1 ≠ 5 ∧ p.1 ≠ 6 ∧ p.1 ≠ 7 → ∀ (s : State), s.FreshAt es p.2.2 := by
    simp [phaseTable, State.FreshAt]
  exact hrow _ hi hx s

/-- A step with no call and no event. -/
theorem State.Fresh.of_silent (htrace : t.trace = s.trace) (h : t.Fresh es) :
    t.Fresh (es ++ newEvents s t) := by
  rw [newEvents_of_trace (htrace.trans (List.append_nil _).symm), List.append_nil]
  exact h

/-! ## The temperature leg -/

/-- Reading byte `bcnt` extends the bytes read by one. -/
theorem take_set_next (sp : Vector Byte 9) {i : Nat} (hi : i < 9) (b : Byte) :
    (sp.set i b).toList.take (i + 1) = sp.toList.take i ++ [b] := by
  simp [List.take_add_one, Vector.toList_set, List.take_set_of_le, hi]

theorem suffix_concat {l : List Event} (h : l <:+ es) (e : Event) : l ++ [e] <:+ es ++ [e] :=
  (List.suffix_append_inj_of_length_eq rfl).mpr ⟨h, rfl⟩

/-- One more byte of the frame. -/
theorem bytesRead_concat {b : Byte} (h : s.bytesRead.map readEvent <:+ es) (hb : s.bcnt.toNat < 9) :
    ((s.sp.set s.bcnt.toNat b).toList.take (s.bcnt.toNat + 1)).map readEvent <:+ es ++ [readEvent b] := by
  rw [take_set_next s.sp hb, List.map_append]
  exact suffix_concat h (readEvent b)

theorem frameSource_of_match (h : s.sp.toList.map readEvent <:+ es) (hcrc : crcMatch s = true) :
    FrameSource s.cfg es 1 (vnumOf (decodeRaw s.sp[0] s.sp[1])) := by
  obtain ⟨earlier, hes⟩ := h
  exact ⟨earlier, s.sp, hes.symm, (crcMatch_iff s).mp hcrc, rfl, rfl⟩

/-! ## The dust leg -/

/-- At the first write of a sample. -/
theorem State.SampledUpTo.sampling (h : s.SampledUpTo counts es) (hcount : s.k.toNat = counts.length)
    (hbatch : counts.length < 16) : s.Sampling counts 0 0 es :=
  { count := hcount, batch := hbatch, sum := h.sum, ends := by simpa using h.ends }

/-- One more call of a sample, other than the read of its count. -/
theorem State.Sampling.call {e : Event} (h : s.Sampling counts r n es) (he : (sampleEvents r)[n]? = some e)
    (hn : n ≠ 2) (hk : t.k = s.k) (hsum : t.sum = s.sum) : t.Sampling counts r (n + 1) (es ++ [e]) :=
  { count := by rw [hk, h.count]
    batch := h.batch
    sum := by
      have hiff : n + 1 ≤ 2 ↔ n ≤ 2 := by omega
      simp only [hsum, h.sum, hiff]
    ends := by
      rw [List.take_add_one, he, Option.toList_some, ← List.append_assoc]
      exact suffix_concat h.ends e }

/-- The read of the count of a sample, after its first two calls, which say nothing of it; the sum fits its
register (R40). -/
theorem State.Sampling.read (h : s.Sampling counts r 2 es) (c : Count) (hk : t.k = s.k)
    (hsum : t.sum = narrow 14 (s.sum.toNat + c.toNat)) :
    t.Sampling counts c 3 (es ++ [.call (.analogRead .dust) (.count c)]) :=
  { count := by rw [hk, h.count]
    batch := h.batch
    sum := by
      have hle := sum_counts_le counts
      have hlt := h.batch
      have hc := c.isLt
      have hold : s.sum.toNat = (counts.map BitVec.toNat).sum := h.sum
      rw [hsum, toNat_narrow (by omega), hold]
      rfl
    ends := by
      have hold : counts.flatMap sampleEvents ++ (sampleEvents c).take 2 <:+ es := h.ends
      have hnew := suffix_concat hold (.call (.analogRead .dust) (.count c))
      rwa [List.append_assoc] at hnew }

/-- The last call of a sample completes it (R178). -/
theorem State.Sampling.settle (h : s.Sampling counts r 5 es) (hsum : t.sum = s.sum) :
    t.SampledUpTo (counts ++ [r]) (es ++ [.call (.delay 9680) .done]) :=
  { sum := by
      have hold : s.sum.toNat = (counts.map BitVec.toNat).sum + r.toNat := h.sum
      simp [hsum, hold]
    ends := by
      have hnew := suffix_concat h.ends (.call (.delay 9680) .done)
      rw [List.append_assoc] at hnew
      rw [List.flatMap_append, List.flatMap_singleton]
      exact hnew }

/-- The phases of one sample are those of its six micro-operations (R101). -/
theorem exists_sample_row : ∀ y : BitVec 4, y.toNat ≤ 5 →
    ∃ i ∈ sampleOps, (6#4, y, i) ∈ phaseTable := by decide

theorem freshAt_sample {i : Instr} (hi : i ∈ sampleOps) :
    s.FreshAt es i ↔ ∃ counts r, s.Sampling counts r s.ph.toNat es := by
  simp only [sampleOps, List.mem_cons, List.not_mem_nil, or_false] at hi
  obtain rfl | rfl | rfl | rfl | rfl | rfl := hi <;> rfl

theorem State.Fresh.sampling {y : BitVec 4} (h : s.Fresh es) (hst : s.st = 6) (hph : s.ph = y)
    (hy : y.toNat ≤ 5 := by decide) : ∃ counts r, s.Sampling counts r y.toNat es := by
  obtain ⟨i, hi, hrow⟩ := exists_sample_row y hy
  rw [← hph]
  exact (freshAt_sample hi).mp (h.at i hst hph hrow)

theorem State.Fresh.of_sampling {y : BitVec 4} (hst : s.st = 6) (hph : s.ph = y)
    (h : s.Sampling counts r y.toNat es) (hy : y.toNat ≤ 5 := by decide) : s.Fresh es := by
  obtain ⟨i, hi, hrow⟩ := exists_sample_row y hy
  rw [← hph] at h
  exact .of_phase i hst hph ((freshAt_sample hi).mpr ⟨counts, r, h⟩) hrow

/-- A row of the transition table within a sample, other than `DS_SAMPLE`'s. -/
theorem State.Fresh.call_of_sample {y y' : BitVec 4} {e : Event} (hs : s.Fresh es) (hst : s.st = 6)
    (hph : s.ph = y) (hst' : t.st = 6) (hph' : t.ph = y') (htrace : t.trace = s.trace ++ [e])
    (he : ∀ r, (sampleEvents r)[y.toNat]? = some e) (hk : t.k = s.k) (hsum : t.sum = s.sum)
    (hy : y'.toNat = y.toNat + 1 ∧ y'.toNat ≤ 5 ∧ y.toNat ≠ 2 := by decide) :
    t.Fresh (es ++ newEvents s t) := by
  obtain ⟨hnext, hlast, hread⟩ := hy
  obtain ⟨counts, r, h⟩ := hs.sampling hst hph (by omega)
  rw [newEvents_of_trace htrace]
  exact .of_sampling hst' hph' (hnext ▸ h.call (he r) hread hk hsum) hlast

theorem batchSource_of_sampled (h : s.SampledUpTo counts es) (hlen : counts.length = 16) :
    BatchSource es 2 (vnumOf (dustNum s.sum.toNat)) := by
  obtain ⟨earlier, hes⟩ := h.ends
  exact ⟨earlier, counts, hlen, hes.symm, rfl, by rw [h.sum]⟩

/-- At the first write of the first sample. -/
theorem fresh_of_batch_start (es : List Event) (hst : s.st = 6) (hph : s.ph = 0) (hk : s.k = 0)
    (hsum : s.sum = 0) : s.Fresh es := by
  have hnone : s.SampledUpTo [] es := { sum := by rw [hsum]; rfl, ends := List.nil_suffix }
  exact .of_sampling hst hph (hnone.sampling (by rw [hk]; rfl) (Nat.zero_lt_succ _))

/-- The probe advance leads to where nothing is asked, or to the start of a batch (R218). -/
theorem fresh_advance (s : State) (es : List Event) : s.advance.Fresh es := by
  obtain ⟨_, heq⟩ | ⟨_, heq⟩ := advance_cases s <;> rw [heq]
  · exact .of_st (x := 3) rfl
  · exact fresh_of_batch_start es rfl rfl rfl rfl

/-! ## Every transition keeps the events fresh -/

/-- Each row of the transition table (R225) extends the events as the phase it leads to needs them. -/
theorem Transition.keeps_fresh (h : Transition s t) (hs : s.Fresh es) : t.Fresh (es ++ newEvents s t) := by
  cases h with
  | waits | fault => exact .of_silent rfl hs
  -- to a phase that asks nothing
  | reserved | initResetNoDevices | initResetDataError | initEnumNone | initEnumFew | rtCheckHalt
  | rtPersistHalt | dsLedOnHalt | dsLedOffHalt | dsPersistHalt | hmPersistHalt => exact .of_st (x := 9) rfl
  | initResetOk => exact .of_st (x := 1) rfl
  | initEnumMore hst => exact .of_st (x := 1) hst
  | initEnumLast => exact .of_st (x := 2) rfl
  | idle | sleep => exact .of_st (x := 3) rfl
  | startConversion => exact .of_st (x := 4) rfl
  | hmPersistOk | hmPersistRecover => exact .of_st (x := 8) rfl
  | awaitConversion => exact .of_phase (x := 5) (y := 0) .rtCmd rfl rfl trivial
  | dsLedOnRecover | dsLedOffRecover | dsPersistOk | dsPersistRecover =>
    exact .of_phase (x := 7) (y := 0) .hmSample rfl rfl trivial
  | rtCheckRecover | rtPersistOk | rtPersistRecover => exact fresh_advance _ _
  -- the temperature leg
  | rtCmd hst => exact .of_phase (y := 1) .rtByte hst rfl List.nil_suffix
  | @rtByteMore a _ hb hst hph =>
    have hnext : (BitVec.ofNat 4 (s.bcnt.toNat + 1)).toNat = s.bcnt.toNat + 1 := by
      rw [BitVec.toNat_ofNat]
      omega
    have hread := bytesRead_concat (b := a.rdata) (hs.at .rtByte hst hph) hb
    rw [newEvents_of_trace rfl]
    refine .of_phase .rtByte hst hph ?_
    rwa [State.FreshAt, State.bytesRead, hnext]
  | @rtByteLast a _ hb hst hph _ hlast =>
    have hread := bytesRead_concat (b := a.rdata) (hs.at .rtByte hst hph) hb
    rw [hlast, List.take_of_length_le (by simp)] at hread
    rw [newEvents_of_trace rfl]
    exact .of_phase (y := 2) .rtCheck hst rfl hread
  | rtCheckMatch hst hph hcrc =>
    exact .of_silent rfl
      (.of_phase (y := 3) .rtPersist hst rfl (frameSource_of_match (hs.at .rtCheck hst hph) hcrc))
  -- the dust leg
  | dsLedOnOk hst hph => exact hs.call_of_sample hst hph (y' := 1) hst rfl rfl (fun _ => rfl) rfl rfl
  | dsHoldRise hst hph => exact hs.call_of_sample hst hph (y' := 2) hst rfl rfl (fun _ => rfl) rfl rfl
  | @dsSample a _ hst hph =>
    obtain ⟨counts, r, h⟩ := hs.sampling hst hph
    rw [newEvents_of_trace rfl]
    exact .of_sampling (y := 3) hst rfl (h.read a.adc rfl rfl)
  | dsHoldPulse hst hph => exact hs.call_of_sample hst hph (y' := 4) hst rfl rfl (fun _ => rfl) rfl rfl
  | dsLedOffOk hst hph => exact hs.call_of_sample hst hph (y' := 5) hst rfl rfl (fun _ => rfl) rfl rfl
  | dsHoldSettleMore hst hph _ hmore =>
    obtain ⟨counts, r, h⟩ := hs.sampling hst hph
    have hcount := h.count
    have hlt := h.batch
    have hnext : (narrow 5 (s.k.toNat + 1)).toNat = (counts ++ [r]).length := by
      rw [toNat_narrow (by omega), hcount, List.length_append, List.length_singleton]
    rw [newEvents_of_trace rfl]
    refine .of_sampling (y := 0) hst rfl (State.SampledUpTo.sampling (h.settle rfl) hnext ?_)
    rw [List.length_append, List.length_singleton]
    omega
  | dsHoldSettleLast hst hph _ hlast =>
    obtain ⟨counts, r, h⟩ := hs.sampling hst hph
    rw [newEvents_of_trace rfl]
    refine .of_phase (y := 6) .dsConvert hst rfl ⟨counts ++ [r], ?_, h.settle rfl⟩
    rw [List.length_append, List.length_singleton, ← h.count, hlast]
  | dsConvert hst hph =>
    obtain ⟨counts, hlen, h⟩ := hs.at .dsConvert hst hph
    exact .of_silent rfl (.of_phase (y := 7) .dsPersist hst rfl (batchSource_of_sampled h hlen))
  -- the humidity leg
  | @hmSample a _ hst =>
    rw [newEvents_of_trace rfl]
    exact .of_phase (y := 1) .hmPersist hst rfl ⟨es, a.adc, rfl, rfl, rfl⟩

/-! ## Every insert follows its source -/

/-- The pending insert of a state sends what the events end with. -/
theorem State.Fresh.source {sid : Sid} {kind : Vkind} {num : Vnum} (hs : s.Fresh es)
    (hcall : callOf s = some (.insertReading sid kind num)) : Source s.cfg es kind num := by
  obtain ⟨i, hrow, hcall⟩ := callOf_eq_some hcall
  have hfresh := hs i hrow
  cases i with
  | rtPersist => cases hcall; exact .inl hfresh
  | dsPersist => cases hcall; exact .inr (.inl hfresh)
  | hmPersist => cases hcall; exact .inr (.inr hfresh)
  | startConversion | rtCmd =>
    obtain ⟨_, _, hcall⟩ := Option.map_eq_some_iff.mp hcall
    cases hcall
  | insertReading => simp [phaseTable] at hrow
  | _ => cases hcall

theorem StepDiags.no_call {diags : List Event} (h : StepDiags diags) (req : Request) (res : Result) :
    .call req res ∉ diags := by
  obtain rfl | ⟨sid, kind, rfl, _⟩ | ⟨sid, rfl⟩ := h <;> simp

/-- A call among the events of a step is the first of them, and the pending one. -/
theorem AddsAtMostItsCall.call_first {req : Request} {res : Result} {before after : List Event}
    (h : AddsAtMostItsCall s t) (hnew : newEvents s t = before ++ .call req res :: after) :
    before = [] ∧ callOf s = some req := by
  obtain ⟨calls, diags, htrace, hcalls, hdiags⟩ := h
  rw [List.append_assoc] at htrace
  rw [newEvents_of_trace htrace] at hnew
  have hno := hdiags.no_call req res
  obtain ⟨req', res', hcall, rfl⟩ | ⟨rfl, _⟩ := hcalls
  · cases before with
    | nil =>
      cases hnew
      exact ⟨rfl, hcall⟩
    | cons e before =>
      obtain ⟨_, rfl⟩ := List.cons.inj hnew
      simp at hno
  · subst hnew
    simp at hno

/-- Every insert among the events directly follows the calls its value is computed from. -/
def Sourced (cfg : Config) (es : List Event) : Prop :=
  ∀ (before after : List Event) (sid : Sid) (kind : Vkind) (num : Vnum) (res : Result),
    es = before ++ .call (.insertReading sid kind num) res :: after → Source cfg before kind num

theorem Transition.keeps_sourced (h : Transition s t) (hs : s.Fresh es) (hes : Sourced s.cfg es) :
    Sourced s.cfg (es ++ newEvents s t) := by
  intro before after sid kind num res heq
  obtain ⟨mid, hbefore, hnew⟩ | ⟨mid, hold, hnew⟩ := List.append_eq_append_iff.mp heq
  · obtain ⟨rfl, hcall⟩ := h.addsAtMostItsCall.call_first hnew
    rw [hbefore, List.append_nil]
    exact hs.source hcall
  · cases mid with
    | nil =>
      rw [List.append_nil] at hold
      rw [← hold]
      exact hs.source (h.addsAtMostItsCall.call_first (before := []) hnew.symm).2
    | cons e mid =>
      obtain ⟨rfl, _⟩ := List.cons.inj hnew
      exact hes before mid sid kind num res hold

/-- Along a run both are kept, whatever came before it. -/
theorem runSteps_sourced (h : runSteps n s = .next t) (hs : s.Fresh es) (hes : Sourced s.cfg es) :
    Sourced s.cfg (es ++ newEvents s t) := by
  refine runSteps_induction
    (motive := fun s new _ => ∀ es, s.Fresh es → Sourced s.cfg es → Sourced s.cfg (es ++ new))
    (fun _ es _ hes => by rwa [List.append_nil]) ?_ h es hs hes
  intro s u t new hstep ih es hs hes
  rw [← List.append_assoc, ← hstep.cfg_pol_eq.1]
  refine ih _ (hstep.keeps_fresh hs) ?_
  rw [hstep.cfg_pol_eq.1]
  exact hstep.keeps_sourced hs hes

/-- Settles O58: at the start of a cycle nothing is asked of the events, and there are none. -/
theorem everyRecordCarriesAFreshValue : Obligations.EveryRecordCarriesAFreshValue := by
  intro n s t before after sid kind num res hstart hrun hnew
  have hfresh : s.Fresh [] := .of_st (st_of_seqWord (x := 3) (y := 0) hstart)
  have hnone : Sourced s.cfg [] := fun _ _ _ _ _ _ h => absurd h (by simp)
  exact runSteps_sourced hrun hfresh hnone before after sid kind num res hnew

end Sys2Proof.Machine
end

section
/-! Proof of O2: the reset input is the state after reset with the collaborators' side put back. -/

namespace Sys2Proof.Machine

variable (s : State) (strap : Policy)

/-- Reset is the only way out of `FAULT` (R264, R280): whatever was next in `s`, `INIT_RESET` is next now. -/
theorem State.decode_resetInput : decode (.seq (s.resetInput strap).seqWord) = .ok .initReset :=
  decode_of_phase (i := .initReset) (List.mem_cons_self ..)

/-- What a reset does not undo: the block's parameters, the answers to come and the trace (R281). -/
theorem State.resetInput_collaborators_eq :
    (s.resetInput strap).cfg = s.cfg ∧ (s.resetInput strap).busIn = s.busIn ∧
      (s.resetInput strap).pinIn = s.pinIn ∧ (s.resetInput strap).persIn = s.persIn ∧
      (s.resetInput strap).dlyIn = s.dlyIn ∧ (s.resetInput strap).trace = s.trace :=
  ⟨rfl, rfl, rfl, rfl, rfl, rfl⟩

/-- Settles O2: the block's registers are those of O1's state, with the parameters of `s` and the strap as it is
now. -/
theorem resetInputRestartsTheBlock : Obligations.ResetInputRestartsTheBlock := by
  intro s strap
  obtain ⟨_, _, hpol, heidx, hpidx, hbcnt, hk, hsum, hfault, hfaultCode, hfaultSid, hvkind, hvnum, _⟩ :=
    resetLeavesTheSpecifiedRegisters s.cfg strap
  exact ⟨s.decode_resetInput strap, hpol, heidx, hpidx, hbcnt, hk, hsum, hvkind, hvnum, hfault, hfaultCode,
    hfaultSid, s.resetInput_collaborators_eq strap⟩

end Sys2Proof.Machine
end
